-- ==== Sys2Proof/Word.lean ====
section
/-! DEFINITION. The bit-vector widths of the machine (R4, R27, R36, R41, R60). -/

namespace Sys2Proof

/-- An 8-bit value: W, a file register, a literal, a byte of program memory (R4). -/
abbrev Byte := BitVec 8

/-- A 16-bit instruction word (R4, R90). -/
abbrev Word := BitVec 16

/-- A 12-bit data memory address, 000h to FFFh (R4, R60). -/
abbrev DataAddr := BitVec 12

/-- A 21-bit program memory byte address (R4, R27, R60). -/
abbrev ProgAddr := BitVec 21

end Sys2Proof
end

