-- ==== Sys2Proof/Syntax.lean ====
section
/-! DEFINITION. The instructions: one constructor per row of spec/opcode_table.json (84 rows; R100), in the
table's order. -/

namespace Sys2Proof

/-- The destination bit d (R8, R64): `wreg` is d = 0, `file` is d = 1. -/
inductive Dest where
  | wreg | file
  deriving DecidableEq, Repr

/-- The RAM access bit a (R8, R62): `access` is a = 0 (Access Bank), `banked` is a = 1 (BSR selects). -/
inductive Access where
  | access | banked
  deriving DecidableEq, Repr

/-- The three File Select Registers (R36). The designator 3 names none, so it is no value of this type. -/
inductive Fsr where
  | fsr0 | fsr1 | fsr2
  deriving DecidableEq, Repr

/-- The instructions of R100. `ret` is RETURN; `nop` is 0000h and `nopF` the second NOP encoding
1111 xxxx xxxx xxxx. `x` fields are don't-care bits (R103): they are kept so that no bit of a word is lost,
and no meaning reads them. `s` is the fast bit. Literals and offsets are as encoded (R98): `n` is two's
complement, `k` of CALL and GOTO a word address. -/
inductive Instr where
  /-- NOP: `0000 0000 0000 0000` (R184). -/
  | nop
  /-- SLEEP: `0000 0000 0000 0011` (R191). -/
  | sleep
  /-- CLRWDT: `0000 0000 0000 0100` (R180). -/
  | clrwdt
  /-- PUSH: `0000 0000 0000 0101` (R186). -/
  | push
  /-- POP: `0000 0000 0000 0110` (R185). -/
  | pop
  /-- DAW: `0000 0000 0000 0111` (R181). -/
  | daw
  /-- TBLRD*: `0000 0000 0000 1000` (R215). -/
  | tblrd
  /-- TBLRD*+: `0000 0000 0000 1001` (R216). -/
  | tblrdPostInc
  /-- TBLRD*-: `0000 0000 0000 1010` (R217). -/
  | tblrdPostDec
  /-- TBLRD+*: `0000 0000 0000 1011` (R218). -/
  | tblrdPreInc
  /-- TBLWT*: `0000 0000 0000 1100` (R219). -/
  | tblwt
  /-- TBLWT*+: `0000 0000 0000 1101` (R220). -/
  | tblwtPostInc
  /-- TBLWT*-: `0000 0000 0000 1110` (R221). -/
  | tblwtPostDec
  /-- TBLWT+*: `0000 0000 0000 1111` (R222). -/
  | tblwtPreInc
  /-- RETFIE: `0000 0000 0001 000s` (R188). -/
  | retfie (s : Bool)
  /-- RETURN: `0000 0000 0001 001s` (R190). -/
  | ret (s : Bool)
  /-- CALLW: `0000 0000 0001 0100` (R232). -/
  | callw
  /-- RESET: `0000 0000 1111 1111` (R187). -/
  | reset
  /-- MOVLB: `0000 0001 kkkk kkkk` (R204). -/
  | movlb (k : Byte)
  /-- MULWF: `0000 001a ffff ffff` (R131). -/
  | mulwf (f : Byte) (a : Access)
  /-- DECF: `0000 01da ffff ffff` (R125). -/
  | decf (f : Byte) (d : Dest) (a : Access)
  /-- SUBLW: `0000 1000 kkkk kkkk` (R207). -/
  | sublw (k : Byte)
  /-- IORLW: `0000 1001 kkkk kkkk` (R202). -/
  | iorlw (k : Byte)
  /-- XORLW: `0000 1010 kkkk kkkk` (R208). -/
  | xorlw (k : Byte)
  /-- ANDLW: `0000 1011 kkkk kkkk` (R201). -/
  | andlw (k : Byte)
  /-- RETLW: `0000 1100 kkkk kkkk` (R189). -/
  | retlw (k : Byte)
  /-- MULLW: `0000 1101 kkkk kkkk` (R206). -/
  | mullw (k : Byte)
  /-- MOVLW: `0000 1110 kkkk kkkk` (R205). -/
  | movlw (k : Byte)
  /-- ADDLW: `0000 1111 kkkk kkkk` (R200). -/
  | addlw (k : Byte)
  /-- IORWF: `0001 00da ffff ffff` (R127). -/
  | iorwf (f : Byte) (d : Dest) (a : Access)
  /-- ANDWF: `0001 01da ffff ffff` (R122). -/
  | andwf (f : Byte) (d : Dest) (a : Access)
  /-- XORWF: `0001 10da ffff ffff` (R142). -/
  | xorwf (f : Byte) (d : Dest) (a : Access)
  /-- COMF: `0001 11da ffff ffff` (R124). -/
  | comf (f : Byte) (d : Dest) (a : Access)
  /-- ADDWFC: `0010 00da ffff ffff` (R121). -/
  | addwfc (f : Byte) (d : Dest) (a : Access)
  /-- ADDWF: `0010 01da ffff ffff` (R120). -/
  | addwf (f : Byte) (d : Dest) (a : Access)
  /-- INCF: `0010 10da ffff ffff` (R126). -/
  | incf (f : Byte) (d : Dest) (a : Access)
  /-- DECFSZ: `0010 11da ffff ffff` (R153). -/
  | decfsz (f : Byte) (d : Dest) (a : Access)
  /-- RRCF: `0011 00da ffff ffff` (R135). -/
  | rrcf (f : Byte) (d : Dest) (a : Access)
  /-- RLCF: `0011 01da ffff ffff` (R133). -/
  | rlcf (f : Byte) (d : Dest) (a : Access)
  /-- SWAPF: `0011 10da ffff ffff` (R141). -/
  | swapf (f : Byte) (d : Dest) (a : Access)
  /-- INCFSZ: `0011 11da ffff ffff` (R155). -/
  | incfsz (f : Byte) (d : Dest) (a : Access)
  /-- RRNCF: `0100 00da ffff ffff` (R136). -/
  | rrncf (f : Byte) (d : Dest) (a : Access)
  /-- RLNCF: `0100 01da ffff ffff` (R134). -/
  | rlncf (f : Byte) (d : Dest) (a : Access)
  /-- INFSNZ: `0100 10da ffff ffff` (R156). -/
  | infsnz (f : Byte) (d : Dest) (a : Access)
  /-- DCFSNZ: `0100 11da ffff ffff` (R154). -/
  | dcfsnz (f : Byte) (d : Dest) (a : Access)
  /-- MOVF: `0101 00da ffff ffff` (R128). -/
  | movf (f : Byte) (d : Dest) (a : Access)
  /-- SUBFWB: `0101 01da ffff ffff` (R138). -/
  | subfwb (f : Byte) (d : Dest) (a : Access)
  /-- SUBWFB: `0101 10da ffff ffff` (R140). -/
  | subwfb (f : Byte) (d : Dest) (a : Access)
  /-- SUBWF: `0101 11da ffff ffff` (R139). -/
  | subwf (f : Byte) (d : Dest) (a : Access)
  /-- CPFSLT: `0110 000a ffff ffff` (R152). -/
  | cpfslt (f : Byte) (a : Access)
  /-- CPFSEQ: `0110 001a ffff ffff` (R150). -/
  | cpfseq (f : Byte) (a : Access)
  /-- CPFSGT: `0110 010a ffff ffff` (R151). -/
  | cpfsgt (f : Byte) (a : Access)
  /-- TSTFSZ: `0110 011a ffff ffff` (R157). -/
  | tstfsz (f : Byte) (a : Access)
  /-- SETF: `0110 100a ffff ffff` (R137). -/
  | setf (f : Byte) (a : Access)
  /-- CLRF: `0110 101a ffff ffff` (R123). -/
  | clrf (f : Byte) (a : Access)
  /-- NEGF: `0110 110a ffff ffff` (R132). -/
  | negf (f : Byte) (a : Access)
  /-- MOVWF: `0110 111a ffff ffff` (R130). -/
  | movwf (f : Byte) (a : Access)
  /-- BTG: `0111 bbba ffff ffff` (R164). -/
  | btg (f : Byte) (b : BitVec 3) (a : Access)
  /-- BSF: `1000 bbba ffff ffff` (R161). -/
  | bsf (f : Byte) (b : BitVec 3) (a : Access)
  /-- BCF: `1001 bbba ffff ffff` (R160). -/
  | bcf (f : Byte) (b : BitVec 3) (a : Access)
  /-- BTFSS: `1010 bbba ffff ffff` (R163). -/
  | btfss (f : Byte) (b : BitVec 3) (a : Access)
  /-- BTFSC: `1011 bbba ffff ffff` (R162). -/
  | btfsc (f : Byte) (b : BitVec 3) (a : Access)
  /-- MOVFF: `1100 ssss ssss ssss + 1111 dddd dddd dddd` (R129). -/
  | movff (fs : DataAddr) (fd : DataAddr)
  /-- BRA: `1101 0nnn nnnn nnnn` (R177). -/
  | bra (n : BitVec 11)
  /-- RCALL: `1101 1nnn nnnn nnnn` (R183). -/
  | rcall (n : BitVec 11)
  /-- BZ: `1110 0000 nnnn nnnn` (R178). -/
  | bz (n : Byte)
  /-- BNZ: `1110 0001 nnnn nnnn` (R175). -/
  | bnz (n : Byte)
  /-- BC: `1110 0010 nnnn nnnn` (R170). -/
  | bc (n : Byte)
  /-- BNC: `1110 0011 nnnn nnnn` (R172). -/
  | bnc (n : Byte)
  /-- BOV: `1110 0100 nnnn nnnn` (R176). -/
  | bov (n : Byte)
  /-- BNOV: `1110 0101 nnnn nnnn` (R174). -/
  | bnov (n : Byte)
  /-- BN: `1110 0110 nnnn nnnn` (R171). -/
  | bn (n : Byte)
  /-- BNN: `1110 0111 nnnn nnnn` (R173). -/
  | bnn (n : Byte)
  /-- ADDFSR: `1110 1000 ffkk kkkk` (R230). -/
  | addfsr (f : Fsr) (k : BitVec 6)
  /-- ADDULNK: `1110 1000 11kk kkkk` (R231). -/
  | addulnk (k : BitVec 6)
  /-- SUBFSR: `1110 1001 ffkk kkkk` (R236). -/
  | subfsr (f : Fsr) (k : BitVec 6)
  /-- SUBULNK: `1110 1001 11kk kkkk` (R237). -/
  | subulnk (k : BitVec 6)
  /-- PUSHL: `1110 1010 kkkk kkkk` (R235). -/
  | pushl (k : Byte)
  /-- MOVSF: `1110 1011 0zzz zzzz + 1111 dddd dddd dddd` (R233). -/
  | movsf (zs : BitVec 7) (fd : DataAddr)
  /-- MOVSS: `1110 1011 1zzz zzzz + 1111 xxxx xzzz zzzz` (R234). -/
  | movss (zs : BitVec 7) (zd : BitVec 7) (x : BitVec 5)
  /-- CALL: `1110 110s kkkk kkkk + 1111 kkkk kkkk kkkk` (R179). -/
  | call (k : BitVec 20) (s : Bool)
  /-- LFSR: `1110 1110 00ff kkkk + 1111 0000 kkkk kkkk` (R203). -/
  | lfsr (f : Fsr) (k : BitVec 12)
  /-- GOTO: `1110 1111 kkkk kkkk + 1111 kkkk kkkk kkkk` (R182). -/
  | goto (k : BitVec 20)
  /-- NOP: `1111 xxxx xxxx xxxx` (R184). -/
  | nopF (x : BitVec 12)
  deriving DecidableEq, Repr

namespace Instr

/-- The eight instructions of the extended set (R104, R229). -/
def isExtended : Instr → Bool
  | .nop => false
  | .sleep => false
  | .clrwdt => false
  | .push => false
  | .pop => false
  | .daw => false
  | .tblrd => false
  | .tblrdPostInc => false
  | .tblrdPostDec => false
  | .tblrdPreInc => false
  | .tblwt => false
  | .tblwtPostInc => false
  | .tblwtPostDec => false
  | .tblwtPreInc => false
  | .retfie _ => false
  | .ret _ => false
  | .callw => true
  | .reset => false
  | .movlb _ => false
  | .mulwf _ _ => false
  | .decf _ _ _ => false
  | .sublw _ => false
  | .iorlw _ => false
  | .xorlw _ => false
  | .andlw _ => false
  | .retlw _ => false
  | .mullw _ => false
  | .movlw _ => false
  | .addlw _ => false
  | .iorwf _ _ _ => false
  | .andwf _ _ _ => false
  | .xorwf _ _ _ => false
  | .comf _ _ _ => false
  | .addwfc _ _ _ => false
  | .addwf _ _ _ => false
  | .incf _ _ _ => false
  | .decfsz _ _ _ => false
  | .rrcf _ _ _ => false
  | .rlcf _ _ _ => false
  | .swapf _ _ _ => false
  | .incfsz _ _ _ => false
  | .rrncf _ _ _ => false
  | .rlncf _ _ _ => false
  | .infsnz _ _ _ => false
  | .dcfsnz _ _ _ => false
  | .movf _ _ _ => false
  | .subfwb _ _ _ => false
  | .subwfb _ _ _ => false
  | .subwf _ _ _ => false
  | .cpfslt _ _ => false
  | .cpfseq _ _ => false
  | .cpfsgt _ _ => false
  | .tstfsz _ _ => false
  | .setf _ _ => false
  | .clrf _ _ => false
  | .negf _ _ => false
  | .movwf _ _ => false
  | .btg _ _ _ => false
  | .bsf _ _ _ => false
  | .bcf _ _ _ => false
  | .btfss _ _ _ => false
  | .btfsc _ _ _ => false
  | .movff _ _ => false
  | .bra _ => false
  | .rcall _ => false
  | .bz _ => false
  | .bnz _ => false
  | .bc _ => false
  | .bnc _ => false
  | .bov _ => false
  | .bnov _ => false
  | .bn _ => false
  | .bnn _ => false
  | .addfsr _ _ => true
  | .addulnk _ => true
  | .subfsr _ _ => true
  | .subulnk _ => true
  | .pushl _ => true
  | .movsf _ _ => true
  | .movss _ _ _ => true
  | .call _ _ => false
  | .lfsr _ _ => false
  | .goto _ => false
  | .nopF _ => false

/-- The number of program words of the instruction (R90). -/
def words : Instr → Nat
  | .nop => 1
  | .sleep => 1
  | .clrwdt => 1
  | .push => 1
  | .pop => 1
  | .daw => 1
  | .tblrd => 1
  | .tblrdPostInc => 1
  | .tblrdPostDec => 1
  | .tblrdPreInc => 1
  | .tblwt => 1
  | .tblwtPostInc => 1
  | .tblwtPostDec => 1
  | .tblwtPreInc => 1
  | .retfie _ => 1
  | .ret _ => 1
  | .callw => 1
  | .reset => 1
  | .movlb _ => 1
  | .mulwf _ _ => 1
  | .decf _ _ _ => 1
  | .sublw _ => 1
  | .iorlw _ => 1
  | .xorlw _ => 1
  | .andlw _ => 1
  | .retlw _ => 1
  | .mullw _ => 1
  | .movlw _ => 1
  | .addlw _ => 1
  | .iorwf _ _ _ => 1
  | .andwf _ _ _ => 1
  | .xorwf _ _ _ => 1
  | .comf _ _ _ => 1
  | .addwfc _ _ _ => 1
  | .addwf _ _ _ => 1
  | .incf _ _ _ => 1
  | .decfsz _ _ _ => 1
  | .rrcf _ _ _ => 1
  | .rlcf _ _ _ => 1
  | .swapf _ _ _ => 1
  | .incfsz _ _ _ => 1
  | .rrncf _ _ _ => 1
  | .rlncf _ _ _ => 1
  | .infsnz _ _ _ => 1
  | .dcfsnz _ _ _ => 1
  | .movf _ _ _ => 1
  | .subfwb _ _ _ => 1
  | .subwfb _ _ _ => 1
  | .subwf _ _ _ => 1
  | .cpfslt _ _ => 1
  | .cpfseq _ _ => 1
  | .cpfsgt _ _ => 1
  | .tstfsz _ _ => 1
  | .setf _ _ => 1
  | .clrf _ _ => 1
  | .negf _ _ => 1
  | .movwf _ _ => 1
  | .btg _ _ _ => 1
  | .bsf _ _ _ => 1
  | .bcf _ _ _ => 1
  | .btfss _ _ _ => 1
  | .btfsc _ _ _ => 1
  | .movff _ _ => 2
  | .bra _ => 1
  | .rcall _ => 1
  | .bz _ => 1
  | .bnz _ => 1
  | .bc _ => 1
  | .bnc _ => 1
  | .bov _ => 1
  | .bnov _ => 1
  | .bn _ => 1
  | .bnn _ => 1
  | .addfsr _ _ => 1
  | .addulnk _ => 1
  | .subfsr _ _ => 1
  | .subulnk _ => 1
  | .pushl _ => 1
  | .movsf _ _ => 2
  | .movss _ _ _ => 2
  | .call _ _ => 2
  | .lfsr _ _ => 2
  | .goto _ => 2
  | .nopF _ => 1

end Instr

end Sys2Proof
end

