-- ==== Sys2Proof/WellFormed.lean ====
section
/-! DEFINITION. When an instruction exists in a machine: the XINST gate of R104. Every other constraint of
R106 is in the types of Syntax.lean (an FSR designator is one of three, a field has its width). -/

namespace Sys2Proof

/-- R104: "The eight extended instructions … decode only when XINST = 1"; the standard 75 exist for both
values of XINST. -/
def wellFormed (xinst : Bool) (i : Instr) : Bool :=
  xinst || !i.isExtended

end Sys2Proof
end

