-- ==== Sys2Proof/Decode.lean ====
section
/-! DEFINITION. Words and bytes, the decoder (total on any bytes, rejecting by name) and, after it, the
encoder. Both are written from the encodings of R90 to R106. `hi` is bits 15:8 of a word and `lo` bits 7:0;
a word is stored low byte first (R70, R71, R90). -/

namespace Sys2Proof

/-! ### Words, bytes and bit fields -/

/-- The word whose bits 15:8 are `hi` and bits 7:0 are `lo`. -/
def wordOf (hi lo : Byte) : Word := hi ++ lo

/-- Bits 15:8 of a word. -/
def wordHi (w : Word) : Byte := w.extractLsb' 8 8

/-- Bits 7:0 of a word. -/
def wordLo (w : Word) : Byte := w.extractLsb' 0 8

/-- The bytes of a word in program memory order, least significant first (R70). -/
def wordBytes (w : Word) : List Byte := [wordLo w, wordHi w]

/-- The bytes of a word sequence in program memory order (R70, R71). -/
def wordsBytes : List Word → List Byte
  | [] => []
  | w :: ws => wordLo w :: wordHi w :: wordsBytes ws

/-- The destination a d bit selects (R8). -/
def destOfBit (b : Bool) : Dest := if b then .file else .wreg

/-- The d bit of a destination (R8). -/
def bitOfDest : Dest → BitVec 1
  | .wreg => 0#1
  | .file => 1#1

/-- The access an a bit selects (R8). -/
def accessOfBit (b : Bool) : Access := if b then .banked else .access

/-- The a bit of an access (R8). -/
def bitOfAccess : Access → BitVec 1
  | .access => 0#1
  | .banked => 1#1

/-- The fast bit s (R8). -/
def bitOfFast (s : Bool) : BitVec 1 := if s then 1#1 else 0#1

/-- The FSR a 2-bit designator names; 3 names none (R36, R106). -/
def fsrOfBits (ff : BitVec 2) : Option Fsr :=
  match ff with
  | 0b00#2 => some .fsr0
  | 0b01#2 => some .fsr1
  | 0b10#2 => some .fsr2
  | _ => none

/-- The 2-bit designator of an FSR (R36). -/
def bitsOfFsr : Fsr → BitVec 2
  | .fsr0 => 0b00#2
  | .fsr1 => 0b01#2
  | .fsr2 => 0b10#2

/-! ### Decoding -/

/-- Why bytes are no instruction. -/
inductive DecodeError where
  /-- The first word matches no row of R100, or only an extended row while XINST = 0 (R102, R104). -/
  | reserved (w : Word)
  /-- The second word of a two-word instruction has not the fixed bits R105 asks for. -/
  | malformedSecondWord (w2 : Word)
  /-- There are not two bytes for a first word. -/
  | noFirstWord
  /-- The first word is that of a two-word instruction and there are not two bytes for its second. -/
  | noSecondWord
  deriving DecidableEq, Repr

/-- What a first word says on its own: a whole one-word instruction, the first half of a two-word one with
the fields it carries, or no instruction. -/
inductive FirstWord where
  | whole (i : Instr)
  | movff (fs : DataAddr)
  | movsf (zs : BitVec 7)
  | movss (zs : BitVec 7)
  | call (k : Byte) (s : Bool)
  | lfsr (f : Fsr) (k : BitVec 4)
  | goto (k : Byte)
  | reserved
  deriving DecidableEq, Repr

/-- First words 00xxh: the FIXED, FIXED_S and TBL groups of R100 (R95 (e), (f), (g)). -/
def decodeFixed (xinst : Bool) (lo : Byte) : FirstWord :=
  match lo with
  | 0x00#8 => .whole .nop
  | 0x03#8 => .whole .sleep
  | 0x04#8 => .whole .clrwdt
  | 0x05#8 => .whole .push
  | 0x06#8 => .whole .pop
  | 0x07#8 => .whole .daw
  | 0x08#8 => .whole .tblrd
  | 0x09#8 => .whole .tblrdPostInc
  | 0x0A#8 => .whole .tblrdPostDec
  | 0x0B#8 => .whole .tblrdPreInc
  | 0x0C#8 => .whole .tblwt
  | 0x0D#8 => .whole .tblwtPostInc
  | 0x0E#8 => .whole .tblwtPostDec
  | 0x0F#8 => .whole .tblwtPreInc
  | 0x10#8 => .whole (.retfie false)
  | 0x11#8 => .whole (.retfie true)
  | 0x12#8 => .whole (.ret false)
  | 0x13#8 => .whole (.ret true)
  | 0x14#8 => if xinst then .whole .callw else .reserved
  | 0xFF#8 => .whole .reset
  | _ => .reserved

/-- First words 0xxxh, by bits 11:8 (R100, R101). -/
def decodeNibble0 (xinst : Bool) (hi lo : Byte) : FirstWord :=
  let d := destOfBit (hi.getLsbD 1)
  let a := accessOfBit (hi.getLsbD 0)
  match hi.extractLsb' 0 4 with
  | 0b0000#4 => decodeFixed xinst lo
  | 0b0001#4 => .whole (.movlb lo)
  | 0b0010#4 => .whole (.mulwf lo a)
  | 0b0011#4 => .whole (.mulwf lo a)
  | 0b1000#4 => .whole (.sublw lo)
  | 0b1001#4 => .whole (.iorlw lo)
  | 0b1010#4 => .whole (.xorlw lo)
  | 0b1011#4 => .whole (.andlw lo)
  | 0b1100#4 => .whole (.retlw lo)
  | 0b1101#4 => .whole (.mullw lo)
  | 0b1110#4 => .whole (.movlw lo)
  | 0b1111#4 => .whole (.addlw lo)
  | _ => .whole (.decf lo d a)

/-- First words 1xxxh to 5xxxh: the BYTE format with a d bit, by bits 15:10 (R91, R100). -/
def decodeByteD (hi lo : Byte) : FirstWord :=
  let d := destOfBit (hi.getLsbD 1)
  let a := accessOfBit (hi.getLsbD 0)
  match hi.extractLsb' 2 6 with
  | 0b000100#6 => .whole (.iorwf lo d a)
  | 0b000101#6 => .whole (.andwf lo d a)
  | 0b000110#6 => .whole (.xorwf lo d a)
  | 0b000111#6 => .whole (.comf lo d a)
  | 0b001000#6 => .whole (.addwfc lo d a)
  | 0b001001#6 => .whole (.addwf lo d a)
  | 0b001010#6 => .whole (.incf lo d a)
  | 0b001011#6 => .whole (.decfsz lo d a)
  | 0b001100#6 => .whole (.rrcf lo d a)
  | 0b001101#6 => .whole (.rlcf lo d a)
  | 0b001110#6 => .whole (.swapf lo d a)
  | 0b001111#6 => .whole (.incfsz lo d a)
  | 0b010000#6 => .whole (.rrncf lo d a)
  | 0b010001#6 => .whole (.rlncf lo d a)
  | 0b010010#6 => .whole (.infsnz lo d a)
  | 0b010011#6 => .whole (.dcfsnz lo d a)
  | 0b010100#6 => .whole (.movf lo d a)
  | 0b010101#6 => .whole (.subfwb lo d a)
  | 0b010110#6 => .whole (.subwfb lo d a)
  | 0b010111#6 => .whole (.subwf lo d a)
  | _ => .reserved

/-- First words 6xxxh: the BYTE_A format without a d bit, by bits 11:9 (R91, R100). -/
def decodeNibble6 (hi lo : Byte) : FirstWord :=
  let a := accessOfBit (hi.getLsbD 0)
  match hi.extractLsb' 1 3 with
  | 0b000#3 => .whole (.cpfslt lo a)
  | 0b001#3 => .whole (.cpfseq lo a)
  | 0b010#3 => .whole (.cpfsgt lo a)
  | 0b011#3 => .whole (.tstfsz lo a)
  | 0b100#3 => .whole (.setf lo a)
  | 0b101#3 => .whole (.clrf lo a)
  | 0b110#3 => .whole (.negf lo a)
  | _ => .whole (.movwf lo a)

/-- First words E8xxh and E9xxh with XINST = 1: designator 3 is ADDULNK or SUBULNK (R96 (c), R106 (b)). -/
def decodeFsrk (sub : Bool) (lo : Byte) : FirstWord :=
  let k := lo.extractLsb' 0 6
  match fsrOfBits (lo.extractLsb' 6 2) with
  | some f => .whole (if sub then .subfsr f k else .addfsr f k)
  | none => .whole (if sub then .subulnk k else .addulnk k)

/-- First words EBxxh with XINST = 1: bit 7 splits MOVSF and MOVSS (R96 (d), (e)). -/
def decodeMovs (lo : Byte) : FirstWord :=
  if lo.getLsbD 7 then .movss (lo.extractLsb' 0 7) else .movsf (lo.extractLsb' 0 7)

/-- First words EExxh: LFSR asks for 00 in bits 7:6 and a designator that names an FSR (R96 (a), R102,
R106 (a)). -/
def decodeLfsr (lo : Byte) : FirstWord :=
  if lo.extractLsb' 6 2 = 0b00#2 then
    match fsrOfBits (lo.extractLsb' 4 2) with
    | some f => .lfsr f (lo.extractLsb' 0 4)
    | none => .reserved
  else .reserved

/-- First words Exxxh, by bits 11:8 (R100, R101). -/
def decodeNibbleE (xinst : Bool) (hi lo : Byte) : FirstWord :=
  match hi.extractLsb' 0 4 with
  | 0b0000#4 => .whole (.bz lo)
  | 0b0001#4 => .whole (.bnz lo)
  | 0b0010#4 => .whole (.bc lo)
  | 0b0011#4 => .whole (.bnc lo)
  | 0b0100#4 => .whole (.bov lo)
  | 0b0101#4 => .whole (.bnov lo)
  | 0b0110#4 => .whole (.bn lo)
  | 0b0111#4 => .whole (.bnn lo)
  | 0b1000#4 => if xinst then decodeFsrk false lo else .reserved
  | 0b1001#4 => if xinst then decodeFsrk true lo else .reserved
  | 0b1010#4 => if xinst then .whole (.pushl lo) else .reserved
  | 0b1011#4 => if xinst then decodeMovs lo else .reserved
  | 0b1100#4 => .call lo false
  | 0b1101#4 => .call lo true
  | 0b1110#4 => decodeLfsr lo
  | _ => .goto lo

/-- The row of R100 a first word matches, under the XINST gate of R104 (R99). -/
def decodeFirst (xinst : Bool) (hi lo : Byte) : FirstWord :=
  let b := hi.extractLsb' 1 3
  let a := accessOfBit (hi.getLsbD 0)
  match hi.extractLsb' 4 4 with
  | 0b0000#4 => decodeNibble0 xinst hi lo
  | 0b0110#4 => decodeNibble6 hi lo
  | 0b0111#4 => .whole (.btg lo b a)
  | 0b1000#4 => .whole (.bsf lo b a)
  | 0b1001#4 => .whole (.bcf lo b a)
  | 0b1010#4 => .whole (.btfss lo b a)
  | 0b1011#4 => .whole (.btfsc lo b a)
  | 0b1100#4 => .movff (hi.extractLsb' 0 4 ++ lo)
  | 0b1101#4 =>
    let n : BitVec 11 := hi.extractLsb' 0 3 ++ lo
    .whole (if hi.getLsbD 3 then .rcall n else .bra n)
  | 0b1110#4 => decodeNibbleE xinst hi lo
  | 0b1111#4 => .whole (.nopF (hi.extractLsb' 0 4 ++ lo))
  | _ => decodeByteD hi lo

/-- The instruction a second word completes; `none` where R105 calls it malformed: bits 15:12 must be 1111,
and for LFSR bits 11:8 must be 0000. -/
def decodeSecond (first : FirstWord) (hi2 lo2 : Byte) : Option Instr :=
  if hi2.extractLsb' 4 4 = 0b1111#4 then
    match first with
    | .movff fs => some (.movff fs (hi2.extractLsb' 0 4 ++ lo2))
    | .movsf zs => some (.movsf zs (hi2.extractLsb' 0 4 ++ lo2))
    | .movss zs => some (.movss zs (lo2.extractLsb' 0 7) (hi2.extractLsb' 0 4 ++ lo2.extractLsb' 7 1))
    | .call k s => some (.call (hi2.extractLsb' 0 4 ++ lo2 ++ k) s)
    | .goto k => some (.goto (hi2.extractLsb' 0 4 ++ lo2 ++ k))
    | .lfsr f k => if hi2.extractLsb' 0 4 = 0b0000#4 then some (.lfsr f (k ++ lo2)) else none
    | .whole _ => none
    | .reserved => none
  else none

/-- The decoder (R99, R102, R104, R105): the instruction at the head of a byte string and the bytes after
it, or the reason there is none. A second word is read only where the first asks for one. -/
def decode (xinst : Bool) : List Byte → Except DecodeError (Instr × List Byte)
  | lo :: hi :: rest =>
    match decodeFirst xinst hi lo with
    | .whole i => .ok (i, rest)
    | .reserved => .error (.reserved (wordOf hi lo))
    | first =>
      match rest with
      | lo2 :: hi2 :: rest' =>
        match decodeSecond first hi2 lo2 with
        | some i => .ok (i, rest')
        | none => .error (.malformedSecondWord (wordOf hi2 lo2))
      | _ => .error .noSecondWord
  | _ => .error .noFirstWord

/-- R97 `IsTwoWord(w)`: w is the first word of a two-word instruction (MOVFF, CALL, GOTO, LFSR with any ff,
and with XINST = 1 MOVSF and MOVSS). -/
def isTwoWord (xinst : Bool) (w : Word) : Bool :=
  w.extractLsb' 12 4 == 0b1100#4
    || w.extractLsb' 9 7 == 0b1110110#7
    || w.extractLsb' 8 8 == 0b11101111#8
    || w.extractLsb' 6 10 == 0b1110111000#10
    || (xinst && w.extractLsb' 8 8 == 0b11101011#8)

/-! ### Encoding -/

/-- Bits 15:8 of the BYTE format: six opcode bits, d, a (R91). -/
def hiByteD (op : BitVec 6) (d : Dest) (a : Access) : Byte := op ++ bitOfDest d ++ bitOfAccess a

/-- Bits 15:8 of the BYTE_A format: seven opcode bits, a (R91). -/
def hiByteA (op : BitVec 7) (a : Access) : Byte := op ++ bitOfAccess a

/-- Bits 15:8 of the BIT format: four opcode bits, b, a (R93). -/
def hiBit (op : BitVec 4) (b : BitVec 3) (a : Access) : Byte := op ++ b ++ bitOfAccess a

/-- A word with four opcode bits and a 12-bit field (R92, R96 (f)). -/
def word12 (op : BitVec 4) (x : BitVec 12) : Word :=
  wordOf (op ++ x.extractLsb' 8 4) (x.extractLsb' 0 8)

/-- A BRA11 word: five opcode bits and an 11-bit offset (R95 (c)). -/
def word11 (op : BitVec 5) (n : BitVec 11) : Word :=
  wordOf (op ++ n.extractLsb' 8 3) (n.extractLsb' 0 8)

/-- The words of an instruction, first word first (R90 to R96, R100). -/
def encode : Instr → List Word
  | .nop => [0x0000#16]
  | .sleep => [0x0003#16]
  | .clrwdt => [0x0004#16]
  | .push => [0x0005#16]
  | .pop => [0x0006#16]
  | .daw => [0x0007#16]
  | .tblrd => [0x0008#16]
  | .tblrdPostInc => [0x0009#16]
  | .tblrdPostDec => [0x000A#16]
  | .tblrdPreInc => [0x000B#16]
  | .tblwt => [0x000C#16]
  | .tblwtPostInc => [0x000D#16]
  | .tblwtPostDec => [0x000E#16]
  | .tblwtPreInc => [0x000F#16]
  | .retfie s => [wordOf 0x00#8 (0b0001000#7 ++ bitOfFast s)]
  | .ret s => [wordOf 0x00#8 (0b0001001#7 ++ bitOfFast s)]
  | .callw => [0x0014#16]
  | .reset => [0x00FF#16]
  | .movlb k => [wordOf 0b00000001#8 k]
  | .mulwf f a => [wordOf (hiByteA 0b0000001#7 a) f]
  | .decf f d a => [wordOf (hiByteD 0b000001#6 d a) f]
  | .sublw k => [wordOf 0b00001000#8 k]
  | .iorlw k => [wordOf 0b00001001#8 k]
  | .xorlw k => [wordOf 0b00001010#8 k]
  | .andlw k => [wordOf 0b00001011#8 k]
  | .retlw k => [wordOf 0b00001100#8 k]
  | .mullw k => [wordOf 0b00001101#8 k]
  | .movlw k => [wordOf 0b00001110#8 k]
  | .addlw k => [wordOf 0b00001111#8 k]
  | .iorwf f d a => [wordOf (hiByteD 0b000100#6 d a) f]
  | .andwf f d a => [wordOf (hiByteD 0b000101#6 d a) f]
  | .xorwf f d a => [wordOf (hiByteD 0b000110#6 d a) f]
  | .comf f d a => [wordOf (hiByteD 0b000111#6 d a) f]
  | .addwfc f d a => [wordOf (hiByteD 0b001000#6 d a) f]
  | .addwf f d a => [wordOf (hiByteD 0b001001#6 d a) f]
  | .incf f d a => [wordOf (hiByteD 0b001010#6 d a) f]
  | .decfsz f d a => [wordOf (hiByteD 0b001011#6 d a) f]
  | .rrcf f d a => [wordOf (hiByteD 0b001100#6 d a) f]
  | .rlcf f d a => [wordOf (hiByteD 0b001101#6 d a) f]
  | .swapf f d a => [wordOf (hiByteD 0b001110#6 d a) f]
  | .incfsz f d a => [wordOf (hiByteD 0b001111#6 d a) f]
  | .rrncf f d a => [wordOf (hiByteD 0b010000#6 d a) f]
  | .rlncf f d a => [wordOf (hiByteD 0b010001#6 d a) f]
  | .infsnz f d a => [wordOf (hiByteD 0b010010#6 d a) f]
  | .dcfsnz f d a => [wordOf (hiByteD 0b010011#6 d a) f]
  | .movf f d a => [wordOf (hiByteD 0b010100#6 d a) f]
  | .subfwb f d a => [wordOf (hiByteD 0b010101#6 d a) f]
  | .subwfb f d a => [wordOf (hiByteD 0b010110#6 d a) f]
  | .subwf f d a => [wordOf (hiByteD 0b010111#6 d a) f]
  | .cpfslt f a => [wordOf (hiByteA 0b0110000#7 a) f]
  | .cpfseq f a => [wordOf (hiByteA 0b0110001#7 a) f]
  | .cpfsgt f a => [wordOf (hiByteA 0b0110010#7 a) f]
  | .tstfsz f a => [wordOf (hiByteA 0b0110011#7 a) f]
  | .setf f a => [wordOf (hiByteA 0b0110100#7 a) f]
  | .clrf f a => [wordOf (hiByteA 0b0110101#7 a) f]
  | .negf f a => [wordOf (hiByteA 0b0110110#7 a) f]
  | .movwf f a => [wordOf (hiByteA 0b0110111#7 a) f]
  | .btg f b a => [wordOf (hiBit 0b0111#4 b a) f]
  | .bsf f b a => [wordOf (hiBit 0b1000#4 b a) f]
  | .bcf f b a => [wordOf (hiBit 0b1001#4 b a) f]
  | .btfss f b a => [wordOf (hiBit 0b1010#4 b a) f]
  | .btfsc f b a => [wordOf (hiBit 0b1011#4 b a) f]
  | .movff fs fd => [word12 0b1100#4 fs, word12 0b1111#4 fd]
  | .bra n => [word11 0b11010#5 n]
  | .rcall n => [word11 0b11011#5 n]
  | .bz n => [wordOf 0b11100000#8 n]
  | .bnz n => [wordOf 0b11100001#8 n]
  | .bc n => [wordOf 0b11100010#8 n]
  | .bnc n => [wordOf 0b11100011#8 n]
  | .bov n => [wordOf 0b11100100#8 n]
  | .bnov n => [wordOf 0b11100101#8 n]
  | .bn n => [wordOf 0b11100110#8 n]
  | .bnn n => [wordOf 0b11100111#8 n]
  | .addfsr f k => [wordOf 0b11101000#8 (bitsOfFsr f ++ k)]
  | .addulnk k => [wordOf 0b11101000#8 (0b11#2 ++ k)]
  | .subfsr f k => [wordOf 0b11101001#8 (bitsOfFsr f ++ k)]
  | .subulnk k => [wordOf 0b11101001#8 (0b11#2 ++ k)]
  | .pushl k => [wordOf 0b11101010#8 k]
  | .movsf zs fd => [wordOf 0b11101011#8 (0b0#1 ++ zs), word12 0b1111#4 fd]
  | .movss zs zd x => [wordOf 0b11101011#8 (0b1#1 ++ zs), word12 0b1111#4 (x ++ zd)]
  | .call k s =>
    [wordOf (0b1110110#7 ++ bitOfFast s) (k.extractLsb' 0 8), word12 0b1111#4 (k.extractLsb' 8 12)]
  | .lfsr f k =>
    [wordOf 0b11101110#8 (0b00#2 ++ bitsOfFsr f ++ k.extractLsb' 8 4), wordOf 0b11110000#8 (k.extractLsb' 0 8)]
  | .goto k => [wordOf 0b11101111#8 (k.extractLsb' 0 8), word12 0b1111#4 (k.extractLsb' 8 12)]
  | .nopF x => [word12 0b1111#4 x]

/-! ### The host's question: one word of the opcode table -/

/-- The `n` lowest bytes of a number, least significant first. -/
def bytesOfNat : Nat → Nat → List Byte
  | 0, _ => []
  | n + 1, w => BitVec.ofNat 8 w :: bytesOfNat n (w / 256)

/-- The four bytes of an instruction given as a number of `nbits` bits, the first word in bits 15:0; every
bit above `nbits` is 0. -/
def tableWordBytes (nbits w : Nat) : List Byte := bytesOfNat 4 (w % 2 ^ nbits)

/-- The instruction the decoder reads from a table word, with the extended set enabled (the 75 standard
instructions decode alike for both values of XINST, R104). -/
def decodeTableWord (nbits w : Nat) : Option Instr :=
  match decode true (tableWordBytes nbits w) with
  | .ok (i, _) => some i
  | .error _ => none

end Sys2Proof
end

