-- ==== Sys2Proof/Config.lean ====
section
/-! DEFINITION. What an implementation fixes (the parameters of 00_scope.md R5) and the free values: the
values the spec leaves open after an instruction or an event that the machine survives. -/

namespace Sys2Proof

namespace Machine

/-! ### The shapes of the parameters -/

/-- The core registers of `SfrMap` (R44), the fifteen virtual indirect addressing registers apart. -/
inductive Sfr where
  | tosu | tosh | tosl | stkptr | pclatu | pclath | pcl | tblptru | tblptrh | tblptrl | tablat | prodh | prodl
  | intcon | fsr0h | fsr0l | wreg | fsr1h | fsr1l | bsr | fsr2h | fsr2l | status | rcon
  deriving DecidableEq, Repr

/-- The five ways an indirect addressing register uses its FSR (R69). -/
inductive IndirectMode where
  | indf | postinc | postdec | preinc | plusw
  deriving DecidableEq, Repr

/-- What `SfrMap` has at an address: a core register, or one of the fifteen indirect addressing registers (R44,
R69). -/
inductive MappedReg where
  | core (r : Sfr)
  | indirect (n : Fsr) (mode : IndirectMode)
  deriving DecidableEq, Repr

/-- `SfrMap` (R5, R44): each mapped data address with its register. -/
abbrev SfrMap := List (DataAddr × MappedReg)

/-- A piece of `AccessMap` (R5, R63): Access Bank locations up to `last` that no earlier piece holds lie at
`base` plus their number. Any map of the locations is a list of such pieces. -/
structure AccessPiece where
  last : Byte
  base : DataAddr
  deriving DecidableEq, Repr

/-- A run of data addresses, both ends in it: a piece of `RamImplemented` (R5, R61). -/
structure RamPiece where
  first : DataAddr
  last : DataAddr
  deriving DecidableEq, Repr

/-- `StatusLayout` (R5, R23): the bit of the Status byte that each flag is. -/
structure StatusLayout where
  n : Fin 8
  ov : Fin 8
  z : Fin 8
  dc : Fin 8
  c : Fin 8
  deriving DecidableEq, Repr

/-- An entry of `ResetValues` (R48): a known value, `x` or "unknown", or `u`. -/
inductive ResetTo (width : Nat) where
  | value (v : BitVec width)
  | unknown
  | unchanged
  deriving DecidableEq, Repr

/-- A column of `ResetValues` (R48): what each register takes at one class of reset. The rows that are no
register are no entries: the pc goes to RESET_VECTOR, the stack is emptied, the Watchdog counters are cleared and
the processor is awake in both columns; RAM is unknown after power-on and unchanged otherwise (R48, R282). -/
structure ResetColumn where
  pclatu : ResetTo 5
  pclath : ResetTo 8
  w : ResetTo 8
  /-- N, OV, Z, DC, C, in that order from the most significant bit. -/
  status : ResetTo 5
  bsr : ResetTo 4
  /-- FSR0H, FSR1H, FSR2H. -/
  fsrh : ResetTo 4
  /-- FSR0L, FSR1L, FSR2L. -/
  fsrl : ResetTo 8
  /-- PRODH, PRODL. -/
  prod : ResetTo 8
  tblptr : ResetTo 21
  tablat : ResetTo 8
  gieh : ResetTo 1
  giel : ResetTo 1
  ipen : ResetTo 1
  timeOut : ResetTo 1
  powerDown : ResetTo 1
  /-- WS, STATUSS, BSRS. -/
  shadow : ResetTo 8
  /-- Each holding register. -/
  holding : ResetTo 8
  deriving DecidableEq, Repr

/-- `ResetValues` (R5, R48): the two columns, and the TO and PD of a MCLR reset in Sleep. -/
structure ResetValues where
  powerOn : ResetColumn
  mclr : ResetColumn
  asleepTimeOut : ResetTo 1
  asleepPowerDown : ResetTo 1
  deriving DecidableEq, Repr

/-! ### The suggested values of R5 -/

/-- The suggested `SfrMap`: the table of R44. -/
def SfrMap.suggested : SfrMap :=
  [(0xFFF#12, .core .tosu), (0xFFE#12, .core .tosh), (0xFFD#12, .core .tosl), (0xFFC#12, .core .stkptr),
   (0xFFB#12, .core .pclatu), (0xFFA#12, .core .pclath), (0xFF9#12, .core .pcl), (0xFF8#12, .core .tblptru),
   (0xFF7#12, .core .tblptrh), (0xFF6#12, .core .tblptrl), (0xFF5#12, .core .tablat), (0xFF4#12, .core .prodh),
   (0xFF3#12, .core .prodl), (0xFF2#12, .core .intcon), (0xFEF#12, .indirect .fsr0 .indf),
   (0xFEE#12, .indirect .fsr0 .postinc), (0xFED#12, .indirect .fsr0 .postdec),
   (0xFEC#12, .indirect .fsr0 .preinc), (0xFEB#12, .indirect .fsr0 .plusw), (0xFEA#12, .core .fsr0h),
   (0xFE9#12, .core .fsr0l), (0xFE8#12, .core .wreg), (0xFE7#12, .indirect .fsr1 .indf),
   (0xFE6#12, .indirect .fsr1 .postinc), (0xFE5#12, .indirect .fsr1 .postdec),
   (0xFE4#12, .indirect .fsr1 .preinc), (0xFE3#12, .indirect .fsr1 .plusw), (0xFE2#12, .core .fsr1h),
   (0xFE1#12, .core .fsr1l), (0xFE0#12, .core .bsr), (0xFDF#12, .indirect .fsr2 .indf),
   (0xFDE#12, .indirect .fsr2 .postinc), (0xFDD#12, .indirect .fsr2 .postdec),
   (0xFDC#12, .indirect .fsr2 .preinc), (0xFDB#12, .indirect .fsr2 .plusw), (0xFDA#12, .core .fsr2h),
   (0xFD9#12, .core .fsr2l), (0xFD8#12, .core .status), (0xFD0#12, .core .rcon)]

/-- The suggested `AccessMap` for the locations above 5Fh (R63): up to 7Fh in bank 0, from 80h in bank 15. -/
def AccessPiece.suggested : List AccessPiece := [⟨0x7F#8, 0x000#12⟩, ⟨0xFF#8, 0xF00#12⟩]

/-- The suggested `StatusLayout` (R23). -/
def StatusLayout.suggested : StatusLayout where
  n := 4
  ov := 3
  z := 2
  dc := 1
  c := 0

/-- The suggested `ResetValues`: the table of R48, general knowledge in the spec itself (D9;
notes/assumptions/1.md). -/
def ResetValues.suggested : ResetValues where
  powerOn :=
    { pclatu := .value 0#5, pclath := .value 0x00#8, w := .unknown, status := .unknown, bsr := .value 0#4
      fsrh := .value 0#4, fsrl := .unknown, prod := .unknown, tblptr := .value 0x000000#21
      tablat := .value 0x00#8, gieh := .value 0#1, giel := .value 0#1, ipen := .value 0#1
      timeOut := .value 1#1, powerDown := .value 1#1, shadow := .unknown, holding := .unknown }
  mclr :=
    { pclatu := .value 0#5, pclath := .value 0x00#8, w := .unchanged, status := .unchanged, bsr := .value 0#4
      fsrh := .value 0#4, fsrl := .unchanged, prod := .unchanged, tblptr := .value 0x000000#21
      tablat := .value 0x00#8, gieh := .value 0#1, giel := .value 0#1, ipen := .value 0#1
      timeOut := .unchanged, powerDown := .unchanged, shadow := .unknown, holding := .unknown }
  asleepTimeOut := .value 1#1
  asleepPowerDown := .value 0#1

end Machine

open Machine

/-- The parameters of R5, which the spec leaves open and which are constant for a run. A state carries them
(`State.cfg`), no step changes them, so that every statement over all states is a statement over all parameters. The
suggested values (`pic18f4520`) are the model's choice for `State.reset` (notes/assumptions/1.md), the forms are the
model's too (2.md). WDT_PERIOD, which only a
model that generates its own time-outs needs, is not among them (notes/assumptions/17.md). -/
structure Config where
  /-- XINST: the extended instruction set and Indexed Literal Offset mode (R46). -/
  xinst : Bool
  /-- PROG_BYTES: implemented program memory, in bytes from address 0 (R72). -/
  progBytes : Nat
  /-- RamImplemented: the data addresses that hold general purpose RAM (R61). -/
  ramImplemented : List RamPiece
  /-- SfrMap: the data addresses of the core registers (R44). -/
  sfrMap : SfrMap
  /-- AccessMap above location 5Fh; up to 5Fh it is given (R63). -/
  accessMap : List AccessPiece
  /-- StatusLayout: the place of the five flags in the Status byte (R23). -/
  statusLayout : StatusLayout
  /-- STACK_DEPTH: return stack levels (R31). -/
  stackDepth : Nat
  /-- HOLDING_REGS: table-write holding registers (R42). -/
  holdingRegs : Nat
  /-- DawCarrySticky (R181, D18). -/
  dawCarrySticky : Bool
  /-- RESET_VECTOR (R280). -/
  resetVector : ProgAddr
  /-- HIGH_VECTOR (R254). -/
  highVector : ProgAddr
  /-- LOW_VECTOR (R254). -/
  lowVector : ProgAddr
  /-- ResetValues: what each register takes at each kind of reset (R48, D9). -/
  resetValues : ResetValues
  deriving DecidableEq, Repr

namespace Config

/-- The suggested parameters of R5 for a PIC18F2520 or PIC18F4520: 32768 bytes of program memory, RAM at
000h to 5FFh (notes/assumptions/1.md and 2.md). -/
def pic18f4520 : Config where
  xinst := false
  progBytes := 32768
  ramImplemented := [⟨0x000#12, 0x5FF#12⟩]
  sfrMap := SfrMap.suggested
  accessMap := AccessPiece.suggested
  statusLayout := StatusLayout.suggested
  stackDepth := 31
  holdingRegs := 8
  dawCarrySticky := true
  resetVector := 0x000000#21
  highVector := 0x000008#21
  lowVector := 0x000018#21
  resetValues := ResetValues.suggested

/-- The suggested parameters of R5 for a PIC18F2420 or PIC18F4420: 16384 bytes of program memory, RAM at
000h to 2FFh. -/
def pic18f4420 : Config :=
  { pic18f4520 with progBytes := 16384, ramImplemented := [⟨0x000#12, 0x2FF#12⟩] }

/-- The bits of the five flags are five different bits (R23). -/
def layoutWf (l : StatusLayout) : Bool := decide [l.n, l.ov, l.z, l.dc, l.c].Nodup

/-- Admissible parameters: the three vectors are instruction addresses (even, R27), program memory is whole
words inside the 21-bit space (R60, R70), the stack pointer of STKPTR<4:0> can count the levels (R44), each flag
has a bit of its own (R23), no address is mapped twice (R44), and the three least significant bits of TBLPTR
select a holding register that exists (R42). -/
def wf (c : Config) : Bool :=
  c.resetVector.getLsbD 0 == false && c.highVector.getLsbD 0 == false && c.lowVector.getLsbD 0 == false
    && decide (c.progBytes % 2 = 0) && decide (c.progBytes ≤ 2 ^ 21) && decide (c.stackDepth < 32)
    && layoutWf c.statusLayout && decide (c.sfrMap.map Prod.fst).Nodup && decide (8 ≤ c.holdingRegs)

/-- What a program memory byte that no image lists reads as: FFh, erased flash
(PRESUMED, notes/assumptions/5.md). -/
def erasedByte : Byte := 0xFF#8

/-- Free value: a RAM byte nothing has written since power-on number `epoch` (R48, D19, U14). It is one
value for one cell and one power-on, and nothing is known of it. -/
opaque ramUnknown (epoch addr : Nat) : Byte

/-- Free value: the byte the environment answers to draw number `n`, a read of the peripheral address
`addr` (R74 `PeripheralRead`, U15). -/
opaque peripheralRead (n : Nat) (addr : DataAddr) : Byte

/-- Free value: draw number `n` of the bits of a register that a reset during a run makes unknown (R48 "x" or
"unknown", U14), as many of them as the register has. -/
opaque unknownBits (n : Nat) : BitVec 21

end Config

end Sys2Proof
end

