-- ==== Sys2Proof/Machine/Memory.lean ====
section
/-! DEFINITION. A byte memory as a sparse list in one canonical form, so that equal memories are equal data.
`blank` is what an unlisted address reads as: `none` for data RAM (nothing is known of an unwritten byte),
`some FFh` for program memory (erased flash). -/

namespace Sys2Proof.Machine

/-- A memory: (address, byte) pairs, addresses strictly rising. -/
abbrev Memory := List Host.Cell

/-- The listed byte at an address. -/
def Memory.lookup : Memory → Nat → Option Byte
  | [], _ => none
  | (b, v) :: m, a => if b = a then some v else Memory.lookup m a

/-- List a byte at an address, in place. -/
def Memory.insert : Memory → Nat → Byte → Memory
  | [], a, v => [(a, v)]
  | (b, u) :: m, a, v =>
    if a < b then (a, v) :: (b, u) :: m
    else if a = b then (a, v) :: m
    else (b, u) :: Memory.insert m a v

/-- Unlist an address. -/
def Memory.erase : Memory → Nat → Memory
  | [], _ => []
  | (b, u) :: m, a => if b = a then m else (b, u) :: Memory.erase m a

/-- Write a byte and keep the canonical form: writing what an unlisted address reads as removes the entry. -/
def Memory.store (blank : Option Byte) (m : Memory) (a : Nat) (v : Byte) : Memory :=
  if blank = some v then Memory.erase m a else Memory.insert m a v

/-- The canonical form: addresses strictly rising, no entry equal to what an unlisted address reads as. -/
abbrev Memory.wf (blank : Option Byte) (m : Memory) : Prop :=
  m.Pairwise (fun c d => c.1 < d.1) ∧ ∀ c ∈ m, blank ≠ some c.2

end Sys2Proof.Machine
end

