-- ==== Sys2Proof/Machine/State.lean ====
section
/-! DEFINITION. The machine state of 10_state.md as plain data, the reasons a step can stop, and the state
after reset. INVENTORY.md lists every field with its rule and its reset value. -/

namespace Sys2Proof.Machine

/-- The five ALU status bits of the Status register, each one bit (R23). Only a data memory access to STATUS
and the copies to and from STATUSS see them as a byte (Flags.lean). -/
structure Flags where
  /-- Negative. -/
  n : Bool
  /-- Overflow. -/
  ov : Bool
  /-- Zero. -/
  z : Bool
  /-- Digit Carry. -/
  dc : Bool
  /-- Carry. -/
  c : Bool
  deriving DecidableEq, Repr

/-- The kinds of reset the environment can cause (R268, R281). -/
inductive ResetKind where
  | powerOn | mclr
  deriving DecidableEq, Repr

/-- Which enables a source needs with IPEN = 0: a peripheral source needs GIEL (PEIE) as well (R256). -/
inductive IrqSource where
  | core | peripheral
  deriving DecidableEq, Repr

/-- An interrupt priority level (R253). -/
inductive IrqLevel where
  | high | low
  deriving DecidableEq, Repr

/-- The environment events of R268 that are taken between instructions. -/
inductive Event where
  | reset (kind : ResetKind)
  | wdtTimeout
  | irq (level : IrqLevel) (source : IrqSource)
  deriving DecidableEq, Repr

/-- What the environment offers at this instruction boundary (R261, R268): the model's own field, set by
whoever stands outside the machine (`State.offer`), read and withdrawn by `step`. -/
structure Env where
  resetEvent : Option ResetKind
  wdtTimeout : Bool
  irqHigh : Option IrqSource
  irqLow : Option IrqSource
  deriving DecidableEq, Repr

/-- The environment offers nothing. -/
def Env.none : Env := { resetEvent := Option.none, wdtTimeout := false, irqHigh := Option.none, irqLow := Option.none }

/-- The model faults of R251: the machine stops, no handler runs, no state of the instruction is kept
(R250, R252). They are the spec's device for "ISS does not say", so each is SAFE: where the hardware goes
on, the model makes no claim. The two optional ones, `StackEmptyAccess` and `UnsupportedIndirect`, are not
raised by this model, which takes the effects of R32 and R69 instead. -/
inductive Fault where
  /-- Raised by the fetch of a first word that matches no row, or only an extended row while XINST = 0
  (R102, R104). Safe. -/
  | reservedInstruction (w : Word)
  /-- Raised by the fetch of a two-word instruction whose second word lacks 1111 in bits 15:12, or for LFSR
  0000 in bits 11:8 (R105). Safe. -/
  | malformedSecondWord (pc : ProgAddr) (w2 : Word)
  /-- Raised by MOVFF, MOVSF, MOVSS with PCL, TOSU, TOSH or TOSL as destination (R284). Safe. -/
  | forbiddenDestination (addr : DataAddr)
  /-- Raised by a push on a full return stack: CALL, RCALL, CALLW, PUSH, an interrupt entry (R33). Safe. -/
  | stackOverflow (pc : ProgAddr)
  /-- Raised by a pop of an empty return stack: RETURN, RETFIE, RETLW, POP, ADDULNK, SUBULNK (R34). Safe. -/
  | stackUnderflow (pc : ProgAddr)
  /-- Raised by a data memory write to STKPTR (R67). Safe. -/
  | unsupportedStackPointerWrite
  /-- Raised by a data access outside RAM, the core registers and F80h to FFFh (R73). Safe. -/
  | unimplementedData (addr : DataAddr)
  /-- Raised by an instruction fetch at or above PROG_BYTES, that of a skipped word among them (R72). Safe. -/
  | fetchOutOfRange (addr : ProgAddr)
  /-- Raised by a TBLRD at or above PROG_BYTES (R72). Safe. -/
  | tableReadOutOfRange (addr : ProgAddr)
  /-- Raised by DECFSZ, DCFSNZ, INCFSZ, INFSNZ with d = 1 and destination PCL (R68 (d), R149). Safe. -/
  | unpredictable
  deriving DecidableEq, Repr

/-- Why an instruction has no meaning. -/
inductive Refusal where
  /-- Raised by an arm of `exec` whose instruction is not modelled; no arm of this model does. Safe. -/
  | notModelled (mnemonic : String)
  deriving DecidableEq, Repr

/-- The machine state. -/
structure State where
  /-- The parameters of R5, constant for a run (R46, D24). -/
  cfg : Config
  /-- Program memory (R60, R70); constant for a run (R82). -/
  prog : Memory
  /-- The program counter, a byte address (R27). -/
  pc : ProgAddr
  /-- W, the working register (R20). -/
  w : Byte
  /-- The Status register's five flags (R23). -/
  flags : Flags
  /-- BSR[3:0], the bits of BSR that exist (R22). -/
  bsr : BitVec 4
  /-- FSR0 (R36). -/
  fsr0 : DataAddr
  /-- FSR1 (R36). -/
  fsr1 : DataAddr
  /-- FSR2 (R36). -/
  fsr2 : DataAddr
  /-- PRODH (R37). -/
  prodh : Byte
  /-- PRODL (R37). -/
  prodl : Byte
  /-- PCLATH (R28). -/
  pclath : Byte
  /-- PCLATU[4:0], the bits of PCLATU that exist (R28). -/
  pclatu : BitVec 5
  /-- The return stack, top first (R31). -/
  stack : List ProgAddr
  /-- STKPTR bit 7, STKFUL (R44). -/
  stkful : Bool
  /-- STKPTR bit 6, STKUNF (R44). -/
  stkunf : Bool
  /-- WS, the shadow of W (R35). -/
  ws : Byte
  /-- STATUSS, the shadow of Status (R35). -/
  statuss : Byte
  /-- BSRS, the shadow of BSR (R35). -/
  bsrs : Byte
  /-- TBLPTR (R41). -/
  tblptr : ProgAddr
  /-- TABLAT (R41). -/
  tablat : Byte
  /-- The table-write holding registers, number 0 first: HOLDING_REGS of them (R42). -/
  holding : List Byte
  /-- INTCON: GIE/GIEH is bit 7, PEIE/GIEL bit 6 (R26, R255); the other bits are plain storage (R67). -/
  intcon : Byte
  /-- RCON: IPEN is bit 7, TO bit 3, PD bit 2 (R25, R255); the other bits are plain storage (R67). -/
  rcon : Byte
  /-- The Watchdog Timer counter (R43). -/
  wdt : Nat
  /-- The Watchdog Timer postscaler counter (R43). -/
  wdtPost : Nat
  /-- The processor is in Sleep mode (R43, R266). -/
  asleep : Bool
  /-- General purpose RAM: the bytes written since power-on (R21, R61). -/
  ram : Memory
  /-- The model's own: how many power-on resets RAM has seen; picks the free values of unwritten bytes. -/
  ramEpoch : Nat
  /-- The model's own: how many free values have been drawn. -/
  draws : Nat
  /-- The model's own: the `PeripheralWrite` output events so far, newest first (R74). -/
  outputs : List Host.Cell
  /-- The model's own: what the environment offers at this boundary (R261, R268). -/
  env : Env
  deriving DecidableEq, Repr

/-- The machine right after a power-on reset (R48 "power-on", R280, R282), with the suggested parameters of
a PIC18F4520 and nothing in program memory. `ResetValues` is an open parameter of R5 (D9): the model's choice here
is the power-on column of its suggested table (DESIGN CHOICE, notes/assumptions/1.md). Where that says "unknown" the
log names zero (notes/assumptions/3.md); RCON's bits that the spec does not name are the family's
(notes/assumptions/4.md). -/
def State.reset : State where
  cfg := Config.pic18f4520
  prog := []
  pc := Config.pic18f4520.resetVector
  w := 0x00#8
  flags := { n := false, ov := false, z := false, dc := false, c := false }
  bsr := 0x0#4
  fsr0 := 0x000#12
  fsr1 := 0x000#12
  fsr2 := 0x000#12
  prodh := 0x00#8
  prodl := 0x00#8
  pclath := 0x00#8
  pclatu := 0b00000#5
  stack := []
  stkful := false
  stkunf := false
  ws := 0x00#8
  statuss := 0x00#8
  bsrs := 0x00#8
  tblptr := 0x000000#21
  tablat := 0x00#8
  holding := List.replicate Config.pic18f4520.holdingRegs 0x00#8
  intcon := 0x00#8
  rcon := 0b00011100#8
  wdt := 0
  wdtPost := 0
  asleep := false
  ram := []
  ramEpoch := 0
  draws := 0
  outputs := []
  env := Env.none

end Sys2Proof.Machine
end

