-- ==== Sys2Proof/Machine/Flags.lean ====
section
/-! DEFINITION. The ALU helpers of R38 to R40, the decimal adjust of R181, and the Status byte (R23). -/

namespace Sys2Proof.Machine

/-- A byte with bit `i` holding `b` and the others 0. -/
def bitAt (i : Fin 8) (b : Bool) : Byte := if b then 0x01#8 <<< i.val else 0x00#8

/-- The flags as the Status byte: each at its bit of `StatusLayout`, the other three bits 0 (R23). -/
def Flags.toByte (fl : Flags) (l : StatusLayout) : Byte :=
  bitAt l.n fl.n ||| bitAt l.ov fl.ov ||| bitAt l.z fl.z ||| bitAt l.dc fl.dc ||| bitAt l.c fl.c

/-- The flags a Status byte holds; its other three bits do not exist (R23, R67). -/
def Flags.ofByte (l : StatusLayout) (v : Byte) : Flags where
  n := v.getLsbD l.n.val
  ov := v.getLsbD l.ov.val
  z := v.getLsbD l.z.val
  dc := v.getLsbD l.dc.val
  c := v.getLsbD l.c.val

/-- The flags as the five bits N, OV, Z, DC, C of the row "Status" of R48. -/
def Flags.bits (fl : Flags) : BitVec 5 :=
  BitVec.ofBool fl.n ++ BitVec.ofBool fl.ov ++ BitVec.ofBool fl.z ++ BitVec.ofBool fl.dc ++ BitVec.ofBool fl.c

/-- The flags that those five bits are. -/
def Flags.ofBits (v : BitVec 5) : Flags where
  n := v.getLsbD 4
  ov := v.getLsbD 3
  z := v.getLsbD 2
  dc := v.getLsbD 1
  c := v.getLsbD 0

/-- R38 `Add8(a, b, cin)`: the 8-bit sum and the five flags. -/
def add8 (a b : Byte) (cin : Bool) : Byte × Flags :=
  let s9 := a.toNat + b.toNat + cin.toNat
  let r := BitVec.ofNat 8 s9
  (r, { n := r.msb
        ov := a.msb == b.msb && r.msb != a.msb
        z := r == 0x00#8
        dc := decide (16 ≤ a.toNat % 16 + b.toNat % 16 + cin.toNat)
        c := decide (256 ≤ s9) })

/-- R39 `Sub8(a, b, bin)`: a - b - bin as `Add8(a, ~b, 1 - bin)`; C = 1 is no borrow. -/
def sub8 (a b : Byte) (bin : Bool) : Byte × Flags := add8 a (~~~b) (!bin)

/-- R40 `SetZN(r)`: Z and N from the result, the other flags kept. -/
def setZN (r : Byte) (fl : Flags) : Flags := { fl with z := r == 0x00#8, n := r.msb }

/-- SetZN and a new C: the rotates through carry (R24, R133, R135). -/
def setCZN (c : Bool) (r : Byte) (fl : Flags) : Flags := { setZN r fl with c := c }

/-- R181, DAW: the adjusted W and the new C. `sticky` is `DawCarrySticky` (D18). -/
def decimalAdjust (sticky : Bool) (w : Byte) (dc c : Bool) : Byte × Bool :=
  let lo0 := w.toNat % 16
  let lo := if 9 < lo0 || dc then lo0 + 6 else lo0
  let hi0 := w.toNat / 16 + lo / 16
  let adj := decide (9 < hi0) || c
  let hi := if adj then hi0 + 6 else hi0
  (BitVec.ofNat 8 (hi % 16 * 16 + lo % 16), if sticky then adj else decide (16 ≤ hi))

end Sys2Proof.Machine
end

