-- ==== Sys2Proof/Machine/Ops.lean ====
section
/-! DEFINITION. The named operations over registers, program memory and the return stack; interrupt entry and
the return from it; the two classes of reset. -/

namespace Sys2Proof.Machine

/-- What `exec` and `step` answer. -/
abbrev Result := Host.Outcome State Fault Refusal

/-- A faulting operation's outcome (R250: a model fault is the final state). -/
def outcome : Except Fault State → Result
  | .ok s => .next s
  | .error e => .fault e

/-! ### Bits of a byte -/

/-- The byte with bit `i` set to `b`. -/
def withBit (x : Byte) (i : Nat) (b : Bool) : Byte :=
  if b then x ||| (0x01#8 <<< i) else x &&& ~~~(0x01#8 <<< i)

/-! ### Program counter and pointers -/

/-- Load the PC. PC[0] = 0 always (R27), so bit 0 of the value is dropped. -/
def State.setPc (s : State) (a : ProgAddr) : State := { s with pc := a &&& 0x1FFFFE#21 }

/-- Move past `n` bytes of program, modulo 2^21 (R27, R29). -/
def State.advance (s : State) (n : ProgAddr) : State := s.setPc (s.pc + n)

/-- The target of a relative branch: pc + 2 + 2 * n with n sign-extended (R98, R109, R169). -/
def State.branchTarget (s : State) {k : Nat} (n : BitVec k) : ProgAddr :=
  s.pc + 2#21 + (n.signExtend 21 <<< 1)

/-- PCLATU : PCLATH : v, what a write of v to PCL loads into the PC (R28, R68 (b)). -/
def State.pclTarget (s : State) (v : Byte) : ProgAddr := s.pclatu ++ s.pclath ++ v

/-- FSR[n] (R36). -/
def State.fsr (s : State) : Fsr → DataAddr
  | .fsr0 => s.fsr0
  | .fsr1 => s.fsr1
  | .fsr2 => s.fsr2

/-- Write FSR[n] (R36). -/
def State.setFsr (s : State) (n : Fsr) (v : DataAddr) : State :=
  match n with
  | .fsr0 => { s with fsr0 := v }
  | .fsr1 => { s with fsr1 := v }
  | .fsr2 => { s with fsr2 := v }

/-- Write PRODH:PRODL with an unsigned product (R37, R131, R206). -/
def State.setProd (s : State) (x y : Byte) : State :=
  let p : BitVec 16 := x.setWidth 16 * y.setWidth 16
  { s with prodh := p.extractLsb' 8 8, prodl := p.extractLsb' 0 8 }

/-! ### Program memory and fetch -/

/-- R70 `ProgRead(addr)`. -/
def State.progByte (s : State) (a : ProgAddr) : Byte :=
  (s.prog.lookup a.toNat).getD Config.erasedByte

/-- R71 `Fetch16(addr)`; `none` at or above PROG_BYTES (R72). -/
def State.fetchWord (s : State) (a : ProgAddr) : Option Word :=
  if a.toNat < s.cfg.progBytes then some (wordOf (s.progByte (a + 1#21)) (s.progByte a)) else none

/-- The bytes the decoder is given: the word at the PC, and the word after it where there is one. -/
def State.fetchBytes (s : State) : List Byte :=
  match s.fetchWord s.pc with
  | none => []
  | some w =>
    match s.fetchWord (s.pc + 2#21) with
    | none => wordsBytes [w]
    | some w2 => wordsBytes [w, w2]

/-- Fetch and decode the instruction at the PC, with the faults of R252 in their order. -/
def State.fetch (s : State) : Except Fault Instr :=
  match decode s.cfg.xinst s.fetchBytes with
  | .ok (i, _) => .ok i
  | .error (.reserved w) => .error (.reservedInstruction w)
  | .error (.malformedSecondWord w2) => .error (.malformedSecondWord s.pc w2)
  | .error .noFirstWord => .error (.fetchOutOfRange s.pc)
  | .error .noSecondWord => .error (.fetchOutOfRange (s.pc + 2#21))

/-- R30 `SkipNext()`: the length of the skipped instruction is read from its first word (R97). -/
def State.skipNext (s : State) : Except Fault State :=
  match s.fetchWord (s.pc + 2#21) with
  | none => .error (.fetchOutOfRange (s.pc + 2#21))
  | some w => .ok (s.advance (if isTwoWord s.cfg.xinst w then 6#21 else 4#21))

/-- The end of a skip instruction (R149): `SkipNext()` if the condition holds, else pc + 2. The word after
the instruction is looked at first, so that the outcome's form does not wait for the condition; only a skip
that is taken can fault on it. -/
def State.skipIf (s : State) (cond : Bool) : Except Fault State :=
  match s.fetchWord (s.pc + 2#21) with
  | none => if cond then .error (.fetchOutOfRange (s.pc + 2#21)) else .ok (s.advance 2#21)
  | some w => .ok (s.advance (if cond then (if isTwoWord s.cfg.xinst w then 6#21 else 4#21) else 2#21))

/-- Put bytes into program memory from an address on. No instruction does (R82): this is the programming of
the device from outside. -/
def loadBytes : Memory → ProgAddr → List Byte → Memory
  | m, _, [] => m
  | m, a, v :: vs => loadBytes (Memory.store (some Config.erasedByte) m a.toNat v) (a + 1#21) vs

/-- An instruction is put where `step` fetches next: its four bytes at the PC, XINST set if it is one of the
extended set (it does not decode otherwise, R104), the processor awake and the environment offering
nothing. -/
def State.loadInstruction (s : State) (nbits w : Nat) : State :=
  { s with
    prog := loadBytes s.prog s.pc (tableWordBytes nbits w)
    cfg := { s.cfg with
      xinst := match decodeTableWord nbits w with
        | some i => s.cfg.xinst || i.isExtended
        | none => s.cfg.xinst }
    asleep := false
    env := Env.none }

/-! ### Table pointer and holding registers -/

/-- The number of the holding register the table pointer selects: its three least significant bits (R42). -/
def holdingIndex (p : ProgAddr) : Nat := p.toNat % 8

/-- `TABLAT <- ProgRead(TBLPTR)` (R215); above PROG_BYTES the fault of R72. -/
def State.tableRead (s : State) : Except Fault State :=
  if s.tblptr.toNat < s.cfg.progBytes then .ok { s with tablat := s.progByte s.tblptr }
  else .error (.tableReadOutOfRange s.tblptr)

/-- `holding[TBLPTR[2:0]] <- TABLAT` (R219). -/
def State.tableWrite (s : State) : State :=
  { s with holding := s.holding.set (holdingIndex s.tblptr) s.tablat }

/-- Move TBLPTR, modulo 2^21 (R41, D25). -/
def State.moveTblptr (s : State) (by_ : ProgAddr) : State := { s with tblptr := s.tblptr + by_ }

/-! ### Return stack and shadow registers -/

/-- R33 `Push(v)`. -/
def State.push (s : State) (v : ProgAddr) : Except Fault State :=
  if s.stack.length < s.cfg.stackDepth then .ok { s with stack := v :: s.stack }
  else .error (.stackOverflow s.pc)

/-- R34 `Pop()`: the top entry and the state without it. -/
def State.pop (s : State) : Except Fault (ProgAddr × State) :=
  match s.stack with
  | [] => .error (.stackUnderflow s.pc)
  | v :: rest => .ok (v, { s with stack := rest })

/-- `pc <- Pop()` (R189, R190, R231). -/
def State.popPc (s : State) : Except Fault State :=
  match s.pop with
  | .error e => .error e
  | .ok (v, s1) => .ok (s1.setPc v)

/-- TOS, zero on an empty stack (R32, R48). -/
def State.tos (s : State) : ProgAddr :=
  match s.stack with
  | [] => 0x000000#21
  | v :: _ => v

/-- Replace TOS; on an empty stack the write is lost (R32). -/
def State.setTos (s : State) (v : ProgAddr) : State :=
  match s.stack with
  | [] => s
  | _ :: rest => { s with stack := v :: rest }

/-- `WS <- W; STATUSS <- Status; BSRS <- BSR` (R35, R179, R257). -/
def State.saveFast (s : State) : State :=
  { s with ws := s.w, statuss := s.flags.toByte s.cfg.statusLayout, bsrs := s.bsr.setWidth 8 }

/-- `W <- WS; Status <- STATUSS; BSR <- BSRS`, when the fast bit is set (R35, R188, R190). -/
def State.restoreFast (s : State) (fast : Bool) : State :=
  if fast then
    { s with w := s.ws, flags := Flags.ofByte s.cfg.statusLayout s.statuss, bsr := s.bsrs.setWidth 4 }
  else s

/-! ### Interrupt entry and return -/

/-- GIE/GIEH, INTCON<7> (R26, R255). -/
def State.gieh (s : State) : Bool := s.intcon.getLsbD 7

/-- PEIE/GIEL, INTCON<6> (R26, R255). -/
def State.giel (s : State) : Bool := s.intcon.getLsbD 6

/-- IPEN, RCON<7> (R255). -/
def State.ipen (s : State) : Bool := s.rcon.getLsbD 7

/-- Write GIE/GIEH. -/
def State.setGieh (s : State) (b : Bool) : State := { s with intcon := withBit s.intcon 7 b }

/-- Write PEIE/GIEL. -/
def State.setGiel (s : State) (b : Bool) : State := { s with intcon := withBit s.intcon 6 b }

/-- Write TO (RCON<3>) and PD (RCON<2>) (R25). -/
def State.setToPd (s : State) (timeOut powerDown : Bool) : State :=
  { s with rcon := withBit (withBit s.rcon 3 timeOut) 2 powerDown }

/-- R256: whether an asserted interrupt can be taken. -/
def State.canTake (s : State) (level : IrqLevel) (source : IrqSource) : Bool :=
  if s.ipen then
    match level with
    | .high => s.gieh
    | .low => s.gieh && s.giel
  else
    match source with
    | .core => s.gieh
    | .peripheral => s.gieh && s.giel

/-- R257: whether an interrupt of this level uses the high vector and GIEH; with IPEN = 0 every one does. -/
def State.asHigh (s : State) (level : IrqLevel) : Bool := level == .high || !s.ipen

/-- R257, interrupt entry: the pc is pushed, W, Status and BSR are saved in the shadow registers, the matching
global enable is cleared, the pc goes to the vector, the processor is awake. -/
def State.interruptEntry (s : State) (level : IrqLevel) : Except Fault State :=
  match s.push s.pc with
  | .error e => .error e
  | .ok s1 =>
    let s2 := s1.saveFast
    let s3 := if s.asHigh level then s2.setGieh false else s2.setGiel false
    .ok ({ s3 with asleep := false }.setPc
      (if s.asHigh level then s.cfg.highVector else s.cfg.lowVector))

/-- R259 `RetfieEnable()`. -/
def State.retfieEnable (s : State) : State :=
  if s.ipen && s.gieh then s.setGiel true else s.setGieh true

/-- The return from an interrupt (R188): pc from the stack, one enable set, the shadows restored if asked. -/
def State.interruptReturn (s : State) (fast : Bool) : Except Fault State :=
  match s.popPc with
  | .error e => .error e
  | .ok s1 => .ok (s1.retfieEnable.restoreFast fast)

/-! ### Reset -/

/-- What a register takes from its entry of R48: the known value, a free value, or what it holds. -/
def ResetTo.load {width : Nat} (e : ResetTo width) (old : BitVec width) (draw : Nat) : BitVec width :=
  match e with
  | .value v => v
  | .unknown => (Config.unknownBits draw).setWidth width
  | .unchanged => old

/-- `ResetTo.load` for a one-bit flag. -/
def ResetTo.loadBit (e : ResetTo 1) (old : Bool) (draw : Nat) : Bool :=
  (e.load (BitVec.ofBool old) draw).getLsbD 0

/-- `ResetTo.load` for each of a row of like registers, the draws counted on. -/
def ResetTo.loadAll (e : ResetTo 8) : List Byte → Nat → List Byte
  | [], _ => []
  | old :: olds, draw => e.load old draw :: ResetTo.loadAll e olds (draw + 1)

/-- `ResetTo.load` for an FSR: its upper four bits and its lower eight are two registers. -/
def ResetColumn.loadFsr (c : ResetColumn) (old : DataAddr) (draw : Nat) : DataAddr :=
  c.fsrh.load (old.extractLsb' 8 4) draw ++ c.fsrl.load (old.extractLsb' 0 8) (draw + 1)

/-- R282 `Reset(class)`: every register takes its entry of the class's column of `ResetValues`, a parameter whose
suggested value is the table of R48 (R5, D9; notes/assumptions/1.md and 2.md); the pc goes to
RESET_VECTOR, the return stack is emptied, the Watchdog counters are cleared, the processor is awake. RAM, the bits
of INTCON and RCON that R48 does not list, STKFUL and STKUNF keep their values (notes/assumptions/4.md, 13.md). -/
def State.resetTo (s : State) (c : ResetColumn) : State :=
  { s with
    pc := s.cfg.resetVector &&& 0x1FFFFE#21
    stack := []
    pclatu := c.pclatu.load s.pclatu s.draws
    pclath := c.pclath.load s.pclath (s.draws + 1)
    w := c.w.load s.w (s.draws + 2)
    flags := Flags.ofBits (c.status.load s.flags.bits (s.draws + 3))
    bsr := c.bsr.load s.bsr (s.draws + 4)
    fsr0 := c.loadFsr s.fsr0 (s.draws + 5)
    fsr1 := c.loadFsr s.fsr1 (s.draws + 7)
    fsr2 := c.loadFsr s.fsr2 (s.draws + 9)
    prodh := c.prod.load s.prodh (s.draws + 11)
    prodl := c.prod.load s.prodl (s.draws + 12)
    tblptr := c.tblptr.load s.tblptr (s.draws + 13)
    tablat := c.tablat.load s.tablat (s.draws + 14)
    intcon := withBit (withBit s.intcon 7 (c.gieh.loadBit s.gieh (s.draws + 15))) 6
      (c.giel.loadBit s.giel (s.draws + 16))
    rcon := withBit (withBit (withBit s.rcon 7 (c.ipen.loadBit s.ipen (s.draws + 17))) 3
      (c.timeOut.loadBit (s.rcon.getLsbD 3) (s.draws + 18))) 2
      (c.powerDown.loadBit (s.rcon.getLsbD 2) (s.draws + 19))
    ws := c.shadow.load s.ws (s.draws + 20)
    statuss := c.shadow.load s.statuss (s.draws + 21)
    bsrs := c.shadow.load s.bsrs (s.draws + 22)
    holding := c.holding.loadAll s.holding (s.draws + 23)
    wdt := 0
    wdtPost := 0
    asleep := false
    draws := s.draws + 23 + s.holding.length }

/-- `Reset(MCLR_class)`, which the RESET instruction performs (R187, R282), with the column of `cfg.resetValues`
(notes/assumptions/1.md). -/
def State.mclrReset (s : State) : State := s.resetTo s.cfg.resetValues.mclr

/-- `Reset(power_on)` during a run (R282), with the column of `cfg.resetValues` (notes/assumptions/1.md). RAM becomes
unknown: a new epoch with nothing written. The stack flags are 0 and the bits of INTCON and RCON that R48 does not
list are as in `State.reset` (notes/assumptions/13.md, 4.md). -/
def State.powerOnReset (s : State) : State :=
  let t := s.resetTo s.cfg.resetValues.powerOn
  { t with
    stkful := false
    stkunf := false
    ram := []
    ramEpoch := t.ramEpoch + 1
    intcon := (t.intcon &&& 0xC0#8) ||| (State.reset.intcon &&& 0x3F#8)
    rcon := (t.rcon &&& 0x8C#8) ||| (State.reset.rcon &&& 0x73#8) }

end Sys2Proof.Machine
end

