-- ==== Sys2Proof/Machine/Operands.lean ====
section
/-! DEFINITION. Data memory: the register map, the address of an operand, and the read and write of one byte
with the dispatch and side effects of R66 to R69, R73, R74. -/

namespace Sys2Proof.Machine

/-- Where a data access goes, once addressing is done (R66 to R69). -/
inductive Place where
  /-- An indirect addressing register that is not resolved: reads 00h, writes are discarded (R69). -/
  | nowhere
  /-- A core register. -/
  | sfr (r : Sfr)
  /-- Implemented RAM. -/
  | ram (addr : DataAddr)
  /-- A peripheral address (R74). -/
  | peripheral (addr : DataAddr)
  /-- No such location (R73). -/
  | unimplemented (addr : DataAddr)
  deriving DecidableEq, Repr

/-! ### The maps -/

/-- What `SfrMap` has at a data address (R44). -/
def regAt : SfrMap → DataAddr → Option MappedReg
  | [], _ => none
  | (b, r) :: m, addr => if b = addr then some r else regAt m addr

/-- The core register at a data address (R44). -/
def sfrAt (cfg : Config) (addr : DataAddr) : Option Sfr :=
  match regAt cfg.sfrMap addr with
  | some (.core r) => some r
  | some (.indirect _ _) => none
  | none => none

/-- The indirect addressing register at a data address (R44, R69). -/
def indirectAt (cfg : Config) (addr : DataAddr) : Option (Fsr × IndirectMode) :=
  match regAt cfg.sfrMap addr with
  | some (.indirect n mode) => some (n, mode)
  | some (.core _) => none
  | none => none

/-- Where the pieces of `AccessMap` put a location; one that no piece holds lies in bank 0. -/
def accessAt : List AccessPiece → Byte → DataAddr
  | [], f => f.setWidth 12
  | g :: gs, f => if f.toNat ≤ g.last.toNat then g.base + f.setWidth 12 else accessAt gs f

/-- R63 `AccessMap(f)`: 000h + f up to 5Fh, the parameter above. -/
def accessMap (cfg : Config) (f : Byte) : DataAddr :=
  if f.toNat ≤ 0x5F then f.setWidth 12 else accessAt cfg.accessMap f

/-- `RamImplemented(addr)` (R5, R61). -/
def ramAt (cfg : Config) (addr : DataAddr) : Bool :=
  cfg.ramImplemented.any fun g => decide (g.first.toNat ≤ addr.toNat) && decide (addr.toNat ≤ g.last.toNat)

/-- Whether R62 takes its second line: Indexed Literal Offset mode. -/
def State.indexed (s : State) (f : Byte) (a : Access) : Bool :=
  s.cfg.xinst && a == .access && decide (f.toNat ≤ 0x5F)

/-- R62 `EA(f, a)`. -/
def State.ea (s : State) (f : Byte) (a : Access) : DataAddr :=
  match a with
  | .banked => s.bsr ++ f
  | .access => if s.indexed f .access then s.fsr2 + f.setWidth 12 else accessMap s.cfg f

/-- `(FSR[2] + zext_12(z)) mod 4096` (R65 (b)). -/
def State.fsr2Offset (s : State) (z : BitVec 7) : DataAddr := s.fsr2 + z.setWidth 12

/-! ### Resolving an address -/

/-- The place of an address by steps (2) to (5) of R66, without `Resolve`: an indirect addressing register that
is not resolved reads 00h and discards writes (R69). -/
def placeAt (cfg : Config) (addr : DataAddr) : Place :=
  match regAt cfg.sfrMap addr with
  | some (.core r) => .sfr r
  | some (.indirect _ _) => .nowhere
  | none =>
    if ramAt cfg addr then .ram addr
    else if 0xF80 ≤ addr.toNat then .peripheral addr
    else .unimplemented addr

/-- The pointer an indirect addressing register uses, and the value FSR[n] takes (R69). -/
def indirectPointer (mode : IndirectMode) (p : DataAddr) (w : Byte) : DataAddr × DataAddr :=
  match mode with
  | .indf => (p, p)
  | .postinc => (p, p + 1#12)
  | .postdec => (p, p - 1#12)
  | .preinc => (p + 1#12, p + 1#12)
  | .plusw => (p + w.signExtend 12, p)

/-- R69 `Resolve(addr)`, and R66 for every other address: the place of the access, and the state with the FSR
updated. Evaluated once per operand. -/
def State.resolve (s : State) (addr : DataAddr) : Place × State :=
  match indirectAt s.cfg addr with
  | none => (placeAt s.cfg addr, s)
  | some (n, mode) =>
    let q := indirectPointer mode (s.fsr n) s.w
    (placeAt s.cfg q.1, s.setFsr n q.2)

/-- The operand of a byte- or bit-oriented instruction: its place and the state after addressing (R62, R69).
An Indexed Literal Offset address is not resolved. -/
def State.operand (s : State) (f : Byte) (a : Access) : Place × State :=
  if s.indexed f a then (placeAt s.cfg (s.ea f a), s) else s.resolve (s.ea f a)

/-! ### Reading and writing a place -/

/-- The value a core register reads as, unimplemented bits 0 (R44, R66, R68 (a)). -/
def State.readSfr (s : State) : Sfr → Byte
  | .tosu => (s.tos.extractLsb' 16 5).setWidth 8
  | .tosh => s.tos.extractLsb' 8 8
  | .tosl => s.tos.extractLsb' 0 8
  | .stkptr => BitVec.ofBool s.stkful ++ BitVec.ofBool s.stkunf ++ 0#1 ++ BitVec.ofNat 5 s.stack.length
  | .pclatu => s.pclatu.setWidth 8
  | .pclath => s.pclath
  | .pcl => (s.pc + 2#21).extractLsb' 0 8
  | .tblptru => (s.tblptr.extractLsb' 16 5).setWidth 8
  | .tblptrh => s.tblptr.extractLsb' 8 8
  | .tblptrl => s.tblptr.extractLsb' 0 8
  | .tablat => s.tablat
  | .prodh => s.prodh
  | .prodl => s.prodl
  | .intcon => s.intcon
  | .fsr0h => (s.fsr0.extractLsb' 8 4).setWidth 8
  | .fsr0l => s.fsr0.extractLsb' 0 8
  | .wreg => s.w
  | .fsr1h => (s.fsr1.extractLsb' 8 4).setWidth 8
  | .fsr1l => s.fsr1.extractLsb' 0 8
  | .bsr => s.bsr.setWidth 8
  | .fsr2h => (s.fsr2.extractLsb' 8 4).setWidth 8
  | .fsr2l => s.fsr2.extractLsb' 0 8
  | .status => s.flags.toByte s.cfg.statusLayout
  | .rcon => s.rcon

/-- The state after a byte is written to a core register: its implemented bits are replaced, the others
ignored (R67); a write of PCL loads the PC (R68 (b)). STKPTR is not written (`writePlace` faults first). -/
def State.writeSfr (s : State) (v : Byte) : Sfr → State
  | .tosu => s.setTos (v.extractLsb' 0 5 ++ s.tos.extractLsb' 0 16)
  | .tosh => s.setTos (s.tos.extractLsb' 16 5 ++ v ++ s.tos.extractLsb' 0 8)
  | .tosl => s.setTos (s.tos.extractLsb' 8 13 ++ v)
  | .stkptr => s
  | .pclatu => { s with pclatu := v.extractLsb' 0 5 }
  | .pclath => { s with pclath := v }
  | .pcl => s.setPc (s.pclTarget v)
  | .tblptru => { s with tblptr := v.extractLsb' 0 5 ++ s.tblptr.extractLsb' 0 16 }
  | .tblptrh => { s with tblptr := s.tblptr.extractLsb' 16 5 ++ v ++ s.tblptr.extractLsb' 0 8 }
  | .tblptrl => { s with tblptr := s.tblptr.extractLsb' 8 13 ++ v }
  | .tablat => { s with tablat := v }
  | .prodh => { s with prodh := v }
  | .prodl => { s with prodl := v }
  | .intcon => { s with intcon := v }
  | .fsr0h => { s with fsr0 := v.extractLsb' 0 4 ++ s.fsr0.extractLsb' 0 8 }
  | .fsr0l => { s with fsr0 := s.fsr0.extractLsb' 8 4 ++ v }
  | .wreg => { s with w := v }
  | .fsr1h => { s with fsr1 := v.extractLsb' 0 4 ++ s.fsr1.extractLsb' 0 8 }
  | .fsr1l => { s with fsr1 := s.fsr1.extractLsb' 8 4 ++ v }
  | .bsr => { s with bsr := v.extractLsb' 0 4 }
  | .fsr2h => { s with fsr2 := v.extractLsb' 0 4 ++ s.fsr2.extractLsb' 0 8 }
  | .fsr2l => { s with fsr2 := s.fsr2.extractLsb' 8 4 ++ v }
  | .status => { s with flags := Flags.ofByte s.cfg.statusLayout v }
  | .rcon => { s with rcon := v }

/-- One byte of RAM: the byte written last, or the free value of an unwritten cell (R48, D19). -/
def State.ramByte (s : State) (addr : DataAddr) : Byte :=
  (s.ram.lookup addr.toNat).getD (Config.ramUnknown s.ramEpoch addr.toNat)

/-- Whether a place can be read: every one but an unimplemented address (R73). -/
def Place.readable : Place → Bool
  | .unimplemented _ => false
  | .nowhere | .sfr _ | .ram _ | .peripheral _ => true

/-- Whether a place can be written: not an unimplemented address (R73), not STKPTR (R67). -/
def Place.writable : Place → Bool
  | .unimplemented _ => false
  | .sfr .stkptr => false
  | .nowhere | .sfr _ | .ram _ | .peripheral _ => true

/-- The byte a place reads as (R66). -/
def State.valueAt (s : State) : Place → Byte
  | .nowhere => 0x00#8
  | .sfr r => s.readSfr r
  | .ram addr => s.ramByte addr
  | .peripheral addr => Config.peripheralRead s.draws addr
  | .unimplemented _ => 0x00#8

/-- The state after a place has been read. A read of PCL loads PCLATH and PCLATU from the PC, which has
incremented (R68 (a)); a peripheral read uses up one answer of the environment (R74). -/
def State.afterRead (s : State) : Place → State
  | .sfr .pcl =>
    { s with pclath := (s.pc + 2#21).extractLsb' 8 8, pclatu := (s.pc + 2#21).extractLsb' 16 5 }
  | .peripheral _ => { s with draws := s.draws + 1 }
  | .nowhere | .sfr _ | .ram _ | .unimplemented _ => s

/-- The state after a byte has been written to a place (R67, R74). -/
def State.afterWrite (s : State) (v : Byte) : Place → State
  | .nowhere => s
  | .sfr r => s.writeSfr v r
  | .ram addr => { s with ram := s.ram.store none addr.toNat v }
  | .peripheral addr => { s with outputs := (addr.toNat, v) :: s.outputs }
  | .unimplemented _ => s

/-- R66 `MemRead` at a resolved place: the byte and the state after the read, or the fault of R73. -/
def State.readPlace (s : State) (p : Place) : Except Fault (Byte × State) :=
  match p with
  | .unimplemented addr => .error (.unimplementedData addr)
  | .nowhere | .sfr _ | .ram _ | .peripheral _ => .ok (s.valueAt p, s.afterRead p)

/-- R67 `MemWrite` at a resolved place: the state after the write, or the faults of R67 and R73. -/
def State.writePlace (s : State) (p : Place) (v : Byte) : Except Fault State :=
  match p with
  | .unimplemented addr => .error (.unimplementedData addr)
  | .sfr .stkptr => .error .unsupportedStackPointerWrite
  | .nowhere | .sfr _ | .ram _ | .peripheral _ => .ok (s.afterWrite v p)

/-- R64 `WriteDest(d, ea, v)`. -/
def State.writeDest (s : State) (d : Dest) (p : Place) (v : Byte) : Except Fault State :=
  match d with
  | .wreg => .ok { s with w := v }
  | .file => s.writePlace p v

/-- The registers MOVFF, MOVSF and MOVSS cannot have as destination (R284). -/
def forbiddenDestination (cfg : Config) (addr : DataAddr) : Bool :=
  match sfrAt cfg addr with
  | some r => r == .pcl || r == .tosu || r == .tosh || r == .tosl
  | none => false

end Sys2Proof.Machine
end

