-- ==== Sys2Proof/Machine/BitOriented.lean ====
section
/-! DEFINITION. The 5 bit-oriented instructions (42_bit_oriented.md, R159 to R164). None writes a flag. -/

namespace Sys2Proof.Machine

/-- Read the whole byte, change it, write the whole byte back (R159). -/
def bitWrite (op : Byte → Byte) (f : Byte) (a : Access) (s : State) : Result :=
  let q := s.operand f a
  match q.2.readPlace q.1 with
  | .error e => .fault e
  | .ok (x, s2) => outcome ((s2.advance 2#21).writePlace q.1 (op x))

/-- Read the byte and skip if bit b has the wanted value (R162, R163). -/
def bitSkip (want : Bool) (f : Byte) (b : BitVec 3) (a : Access) (s : State) : Result :=
  let q := s.operand f a
  match q.2.readPlace q.1 with
  | .error e => .fault e
  | .ok (x, s2) => outcome (s2.skipIf (x.getLsbD b.toNat == want))

/-- R160 BCF. -/
def execBcf (f : Byte) (b : BitVec 3) (a : Access) (s : State) : Result :=
  bitWrite (fun x => withBit x b.toNat false) f a s

/-- R161 BSF. -/
def execBsf (f : Byte) (b : BitVec 3) (a : Access) (s : State) : Result :=
  bitWrite (fun x => withBit x b.toNat true) f a s

/-- R162 BTFSC. -/
def execBtfsc (f : Byte) (b : BitVec 3) (a : Access) (s : State) : Result :=
  bitSkip false f b a s

/-- R163 BTFSS. -/
def execBtfss (f : Byte) (b : BitVec 3) (a : Access) (s : State) : Result :=
  bitSkip true f b a s

/-- R164 BTG. -/
def execBtg (f : Byte) (b : BitVec 3) (a : Access) (s : State) : Result :=
  bitWrite (fun x => withBit x b.toNat (!x.getLsbD b.toNat)) f a s

end Sys2Proof.Machine
end

