-- ==== Sys2Proof/Machine/ByteOriented.lean ====
section
/-! DEFINITION. The 23 byte-oriented instructions that never skip (40_byte_oriented.md, R119 to R142). The PC
moves past the instruction before the result is written, so that a write of PCL decides the next PC (R29);
flags are set after the write, so that they win over a result written to STATUS (R68 (e)). -/

namespace Sys2Proof.Machine

/-- R119 with a d bit: read the operand, compute the result and the flag update from the state after the
read, write the destination. -/
def fileOp (op : State → Byte → Byte × (Flags → Flags)) (f : Byte) (d : Dest) (a : Access) (s : State) :
    Result :=
  let q := s.operand f a
  match q.2.readPlace q.1 with
  | .error e => .fault e
  | .ok (x, s2) =>
    let r := op s2 x
    match (s2.advance 2#21).writeDest d q.1 r.1 with
    | .error e => .fault e
    | .ok s3 => .next { s3 with flags := r.2 s3.flags }

/-- An arithmetic result: all five flags are written (R24). -/
def allFlags (r : Byte × Flags) : Byte × (Flags → Flags) := (r.1, fun _ => r.2)

/-- A logic, move or rotate result: Z and N are written (R40). -/
def znFlags (r : Byte) : Byte × (Flags → Flags) := (r, setZN r)

/-- A rotate through carry: C, Z and N are written (R24). -/
def cznFlags (c : Bool) (r : Byte) : Byte × (Flags → Flags) := (r, setCZN c r)

/-- R119 without a read: write a byte to the operand and update the flags. -/
def fileStore (v : State → Byte) (upd : Flags → Flags) (f : Byte) (a : Access) (s : State) : Result :=
  let q := s.operand f a
  match (q.2.advance 2#21).writePlace q.1 (v q.2) with
  | .error e => .fault e
  | .ok s2 => .next { s2 with flags := upd s2.flags }

/-- R120 ADDWF. -/
def execAddwf (f : Byte) (d : Dest) (a : Access) (s : State) : Result :=
  fileOp (fun t x => allFlags (add8 t.w x false)) f d a s

/-- R121 ADDWFC. -/
def execAddwfc (f : Byte) (d : Dest) (a : Access) (s : State) : Result :=
  fileOp (fun t x => allFlags (add8 t.w x t.flags.c)) f d a s

/-- R122 ANDWF. -/
def execAndwf (f : Byte) (d : Dest) (a : Access) (s : State) : Result :=
  fileOp (fun t x => znFlags (t.w &&& x)) f d a s

/-- R123 CLRF: Z is set, no other flag changes. -/
def execClrf (f : Byte) (a : Access) (s : State) : Result :=
  fileStore (fun _ => 0x00#8) (fun fl => { fl with z := true }) f a s

/-- R124 COMF. -/
def execComf (f : Byte) (d : Dest) (a : Access) (s : State) : Result :=
  fileOp (fun _ x => znFlags (~~~x)) f d a s

/-- R125 DECF. -/
def execDecf (f : Byte) (d : Dest) (a : Access) (s : State) : Result :=
  fileOp (fun _ x => allFlags (sub8 x 0x01#8 false)) f d a s

/-- R126 INCF. -/
def execIncf (f : Byte) (d : Dest) (a : Access) (s : State) : Result :=
  fileOp (fun _ x => allFlags (add8 x 0x01#8 false)) f d a s

/-- R127 IORWF. -/
def execIorwf (f : Byte) (d : Dest) (a : Access) (s : State) : Result :=
  fileOp (fun t x => znFlags (t.w ||| x)) f d a s

/-- R128 MOVF. -/
def execMovf (f : Byte) (d : Dest) (a : Access) (s : State) : Result :=
  fileOp (fun _ x => znFlags x) f d a s

/-- R129 MOVFF: the destination is checked before any access; the source is read completely before the
destination is written; each address is resolved once. -/
def execMovff (fs fd : DataAddr) (s : State) : Result :=
  if forbiddenDestination s.cfg fd then .fault (.forbiddenDestination fd)
  else
    let q := s.resolve fs
    match q.2.readPlace q.1 with
    | .error e => .fault e
    | .ok (v, s2) =>
      let q2 := (s2.advance 4#21).resolve fd
      outcome (q2.2.writePlace q2.1 v)

/-- R130 MOVWF. W is taken before the write. -/
def execMovwf (f : Byte) (a : Access) (s : State) : Result :=
  fileStore (fun t => t.w) (fun fl => fl) f a s

/-- R131 MULWF. -/
def execMulwf (f : Byte) (a : Access) (s : State) : Result :=
  let q := s.operand f a
  match q.2.readPlace q.1 with
  | .error e => .fault e
  | .ok (x, s2) => .next ((s2.setProd s2.w x).advance 2#21)

/-- R132 NEGF. -/
def execNegf (f : Byte) (a : Access) (s : State) : Result :=
  fileOp (fun _ x => allFlags (add8 (~~~x) 0x01#8 false)) f .file a s

/-- R133 RLCF. -/
def execRlcf (f : Byte) (d : Dest) (a : Access) (s : State) : Result :=
  fileOp (fun t x => cznFlags (x.getLsbD 7) (x.extractLsb' 0 7 ++ BitVec.ofBool t.flags.c)) f d a s

/-- R134 RLNCF. -/
def execRlncf (f : Byte) (d : Dest) (a : Access) (s : State) : Result :=
  fileOp (fun _ x => znFlags (x.extractLsb' 0 7 ++ x.extractLsb' 7 1)) f d a s

/-- R135 RRCF. -/
def execRrcf (f : Byte) (d : Dest) (a : Access) (s : State) : Result :=
  fileOp (fun t x => cznFlags (x.getLsbD 0) (BitVec.ofBool t.flags.c ++ x.extractLsb' 1 7)) f d a s

/-- R136 RRNCF. -/
def execRrncf (f : Byte) (d : Dest) (a : Access) (s : State) : Result :=
  fileOp (fun _ x => znFlags (x.extractLsb' 0 1 ++ x.extractLsb' 1 7)) f d a s

/-- R137 SETF. -/
def execSetf (f : Byte) (a : Access) (s : State) : Result :=
  fileStore (fun _ => 0xFF#8) (fun fl => fl) f a s

/-- R138 SUBFWB: W - f - not C. -/
def execSubfwb (f : Byte) (d : Dest) (a : Access) (s : State) : Result :=
  fileOp (fun t x => allFlags (sub8 t.w x (!t.flags.c))) f d a s

/-- R139 SUBWF: f - W. -/
def execSubwf (f : Byte) (d : Dest) (a : Access) (s : State) : Result :=
  fileOp (fun t x => allFlags (sub8 x t.w false)) f d a s

/-- R140 SUBWFB: f - W - not C. -/
def execSubwfb (f : Byte) (d : Dest) (a : Access) (s : State) : Result :=
  fileOp (fun t x => allFlags (sub8 x t.w (!t.flags.c))) f d a s

/-- R141 SWAPF: no flags. -/
def execSwapf (f : Byte) (d : Dest) (a : Access) (s : State) : Result :=
  fileOp (fun _ x => (x.extractLsb' 0 4 ++ x.extractLsb' 4 4, fun fl => fl)) f d a s

/-- R142 XORWF. -/
def execXorwf (f : Byte) (d : Dest) (a : Access) (s : State) : Result :=
  fileOp (fun t x => znFlags (t.w ^^^ x)) f d a s

end Sys2Proof.Machine
end

