-- ==== Sys2Proof/Machine/ByteSkip.lean ====
section
/-! DEFINITION. The 8 byte-oriented compare, test and skip instructions (41_byte_oriented_skip.md, R149 to
R157). None writes a flag. -/

namespace Sys2Proof.Machine

/-- Read the operand and skip if the condition holds of the state after the read and the byte (R149). -/
def testSkip (cond : State → Byte → Bool) (f : Byte) (a : Access) (s : State) : Result :=
  let q := s.operand f a
  match q.2.readPlace q.1 with
  | .error e => .fault e
  | .ok (x, s2) => outcome (s2.skipIf (cond s2 x))

/-- Read the operand, write the changed byte, skip if the condition holds of it; with d = 1 and destination
PCL the fault of R68 (d) (R149). -/
def changeSkip (op : Byte → Byte) (cond : Byte → Bool) (f : Byte) (d : Dest) (a : Access) (s : State) :
    Result :=
  let q := s.operand f a
  match q.2.readPlace q.1 with
  | .error e => .fault e
  | .ok (x, s2) =>
    if d = .file ∧ q.1 = .sfr .pcl then .fault .unpredictable
    else
      match s2.writeDest d q.1 (op x) with
      | .error e => .fault e
      | .ok s3 => outcome (s3.skipIf (cond (op x)))

/-- R150 CPFSEQ. -/
def execCpfseq (f : Byte) (a : Access) (s : State) : Result :=
  testSkip (fun t x => x == t.w) f a s

/-- R151 CPFSGT, unsigned. -/
def execCpfsgt (f : Byte) (a : Access) (s : State) : Result :=
  testSkip (fun t x => decide (t.w.toNat < x.toNat)) f a s

/-- R152 CPFSLT, unsigned. -/
def execCpfslt (f : Byte) (a : Access) (s : State) : Result :=
  testSkip (fun t x => decide (x.toNat < t.w.toNat)) f a s

/-- R153 DECFSZ. -/
def execDecfsz (f : Byte) (d : Dest) (a : Access) (s : State) : Result :=
  changeSkip (fun x => x - 0x01#8) (fun r => r == 0x00#8) f d a s

/-- R154 DCFSNZ. -/
def execDcfsnz (f : Byte) (d : Dest) (a : Access) (s : State) : Result :=
  changeSkip (fun x => x - 0x01#8) (fun r => r != 0x00#8) f d a s

/-- R155 INCFSZ. -/
def execIncfsz (f : Byte) (d : Dest) (a : Access) (s : State) : Result :=
  changeSkip (fun x => x + 0x01#8) (fun r => r == 0x00#8) f d a s

/-- R156 INFSNZ. -/
def execInfsnz (f : Byte) (d : Dest) (a : Access) (s : State) : Result :=
  changeSkip (fun x => x + 0x01#8) (fun r => r != 0x00#8) f d a s

/-- R157 TSTFSZ. -/
def execTstfsz (f : Byte) (a : Access) (s : State) : Result :=
  testSkip (fun _ x => x == 0x00#8) f a s

end Sys2Proof.Machine
end

