-- ==== Sys2Proof/Machine/Control.lean ====
section
/-! DEFINITION. The 22 control operations (43_control.md, R169 to R191) and the second NOP encoding. -/

namespace Sys2Proof.Machine

/-- A conditional relative branch (R170 to R178). -/
def branchIf (cond : Bool) (n : Byte) (s : State) : Result :=
  .next (if cond then s.setPc (s.branchTarget n) else s.advance 2#21)

/-- R170 BC. -/
def execBc (n : Byte) (s : State) : Result := branchIf s.flags.c n s

/-- R171 BN. -/
def execBn (n : Byte) (s : State) : Result := branchIf s.flags.n n s

/-- R172 BNC. -/
def execBnc (n : Byte) (s : State) : Result := branchIf (!s.flags.c) n s

/-- R173 BNN. -/
def execBnn (n : Byte) (s : State) : Result := branchIf (!s.flags.n) n s

/-- R174 BNOV. -/
def execBnov (n : Byte) (s : State) : Result := branchIf (!s.flags.ov) n s

/-- R175 BNZ. -/
def execBnz (n : Byte) (s : State) : Result := branchIf (!s.flags.z) n s

/-- R176 BOV. -/
def execBov (n : Byte) (s : State) : Result := branchIf s.flags.ov n s

/-- R178 BZ. -/
def execBz (n : Byte) (s : State) : Result := branchIf s.flags.z n s

/-- R177 BRA. -/
def execBra (n : BitVec 11) (s : State) : Result := .next (s.setPc (s.branchTarget n))

/-- R179 CALL: `k : 0` goes to the PC ("k → PC<20:1>"). -/
def execCall (k : BitVec 20) (fast : Bool) (s : State) : Result :=
  match s.push (s.pc + 4#21) with
  | .error e => .fault e
  | .ok s1 => .next ((if fast then s1.saveFast else s1).setPc (k ++ 0#1))

/-- R182 GOTO. -/
def execGoto (k : BitVec 20) (s : State) : Result := .next (s.setPc (k ++ 0#1))

/-- R183 RCALL. -/
def execRcall (n : BitVec 11) (s : State) : Result :=
  match s.push (s.pc + 2#21) with
  | .error e => .fault e
  | .ok s1 => .next (s1.setPc (s.branchTarget n))

/-- R189 RETLW. -/
def execRetlw (k : Byte) (s : State) : Result := outcome { s with w := k }.popPc

/-- R190 RETURN. -/
def execReturn (fast : Bool) (s : State) : Result :=
  match s.popPc with
  | .error e => .fault e
  | .ok s1 => .next (s1.restoreFast fast)

/-- R188 RETFIE. -/
def execRetfie (fast : Bool) (s : State) : Result := outcome (s.interruptReturn fast)

/-- R186 PUSH. -/
def execPush (s : State) : Result :=
  match s.push (s.pc + 2#21) with
  | .error e => .fault e
  | .ok s1 => .next (s1.advance 2#21)

/-- R185 POP. -/
def execPop (s : State) : Result :=
  match s.pop with
  | .error e => .fault e
  | .ok (_, s1) => .next (s1.advance 2#21)

/-- R184 NOP. -/
def execNop (s : State) : Result := .next (s.advance 2#21)

/-- R184 NOP, second encoding 1111 xxxx xxxx xxxx. -/
def execNopF (s : State) : Result := .next (s.advance 2#21)

/-- R181 DAW: W and C; the other flags keep their values. -/
def execDaw (s : State) : Result :=
  let r := decimalAdjust s.cfg.dawCarrySticky s.w s.flags.dc s.flags.c
  .next ({ s with w := r.1, flags := { s.flags with c := r.2 } }.advance 2#21)

/-- R180 CLRWDT. -/
def execClrwdt (s : State) : Result :=
  .next (({ s with wdt := 0, wdtPost := 0 }.setToPd true true).advance 2#21)

/-- R191 SLEEP. -/
def execSleep (s : State) : Result :=
  .next (({ s with wdt := 0, wdtPost := 0, asleep := true }.setToPd true false).advance 2#21)

/-- R187 RESET: `Reset(MCLR_class)`. -/
def execReset (s : State) : Result := .next s.mclrReset

end Sys2Proof.Machine
end

