-- ==== Sys2Proof/Machine/Extended.lean ====
section
/-! DEFINITION. The eight instructions of the extended set (46_extended.md, R229 to R237). They decode only
with XINST = 1 (R104); their meanings are those of R230 to R237, "for XINST = 1". -/

namespace Sys2Proof.Machine

/-- R230 ADDFSR. -/
def execAddfsr (f : Fsr) (k : BitVec 6) (s : State) : Result :=
  .next ((s.setFsr f (s.fsr f + k.setWidth 12)).advance 2#21)

/-- R236 SUBFSR. -/
def execSubfsr (f : Fsr) (k : BitVec 6) (s : State) : Result :=
  .next ((s.setFsr f (s.fsr f - k.setWidth 12)).advance 2#21)

/-- R231 ADDULNK. -/
def execAddulnk (k : BitVec 6) (s : State) : Result :=
  outcome { s with fsr2 := s.fsr2 + k.setWidth 12 }.popPc

/-- R237 SUBULNK. -/
def execSubulnk (k : BitVec 6) (s : State) : Result :=
  outcome { s with fsr2 := s.fsr2 - k.setWidth 12 }.popPc

/-- R232 CALLW: W, PCLATH and PCLATU go to the PC, whose bit 0 stays 0. -/
def execCallw (s : State) : Result :=
  match s.push (s.pc + 2#21) with
  | .error e => .fault e
  | .ok s1 => .next (s1.setPc (s.pclTarget s.w))

/-- R233 MOVSF: the source is not resolved, the destination is (R69). -/
def execMovsf (zs : BitVec 7) (fd : DataAddr) (s : State) : Result :=
  if forbiddenDestination s.cfg fd then .fault (.forbiddenDestination fd)
  else
    match s.readPlace (placeAt s.cfg (s.fsr2Offset zs)) with
    | .error e => .fault e
    | .ok (v, s1) =>
      let q := (s1.advance 4#21).resolve fd
      outcome (q.2.writePlace q.1 v)

/-- R234 MOVSS: neither address is resolved; a destination that is an indirect addressing register makes it a
NOP, without a read. -/
def execMovss (zs zd : BitVec 7) (s : State) : Result :=
  let dst := s.fsr2Offset zd
  if forbiddenDestination s.cfg dst then .fault (.forbiddenDestination dst)
  else
    match indirectAt s.cfg dst with
    | some _ => .next (s.advance 4#21)
    | none =>
      match s.readPlace (placeAt s.cfg (s.fsr2Offset zs)) with
      | .error e => .fault e
      | .ok (v, s1) => outcome ((s1.advance 4#21).writePlace (placeAt s.cfg dst) v)

/-- R235 PUSHL: FSR2 is decremented after the write. -/
def execPushl (k : Byte) (s : State) : Result :=
  let q := (s.advance 2#21).resolve s.fsr2
  match q.2.writePlace q.1 k with
  | .error e => .fault e
  | .ok s1 => .next { s1 with fsr2 := s1.fsr2 - 1#12 }

end Sys2Proof.Machine
end

