-- ==== Sys2Proof/Machine/Literal.lean ====
section
/-! DEFINITION. The literal operations (44_literal.md, R199 to R208). W is written directly. -/

namespace Sys2Proof.Machine

/-- Write W and update the flags, then pc + 2 (R199). -/
def literalOp (r : Byte × (Flags → Flags)) (s : State) : Result :=
  .next ({ s with w := r.1, flags := r.2 s.flags }.advance 2#21)

/-- R200 ADDLW. -/
def execAddlw (k : Byte) (s : State) : Result :=
  literalOp ((add8 s.w k false).1, fun _ => (add8 s.w k false).2) s

/-- R201 ANDLW. -/
def execAndlw (k : Byte) (s : State) : Result := literalOp (s.w &&& k, setZN (s.w &&& k)) s

/-- R202 IORLW. -/
def execIorlw (k : Byte) (s : State) : Result := literalOp (s.w ||| k, setZN (s.w ||| k)) s

/-- R208 XORLW. -/
def execXorlw (k : Byte) (s : State) : Result := literalOp (s.w ^^^ k, setZN (s.w ^^^ k)) s

/-- R205 MOVLW: no flags. -/
def execMovlw (k : Byte) (s : State) : Result := literalOp (k, fun fl => fl) s

/-- R207 SUBLW: k - W. -/
def execSublw (k : Byte) (s : State) : Result :=
  literalOp ((sub8 k s.w false).1, fun _ => (sub8 k s.w false).2) s

/-- R206 MULLW. -/
def execMullw (k : Byte) (s : State) : Result := .next ((s.setProd s.w k).advance 2#21)

/-- R204 MOVLB: only k[3:0] is used (R106 (c)). -/
def execMovlb (k : Byte) (s : State) : Result :=
  .next ({ s with bsr := k.extractLsb' 0 4 }.advance 2#21)

/-- R203 LFSR. -/
def execLfsr (f : Fsr) (k : BitVec 12) (s : State) : Result := .next ((s.setFsr f k).advance 4#21)

end Sys2Proof.Machine
end

