-- ==== Sys2Proof/Machine/Table.lean ====
section
/-! DEFINITION. The eight table instructions (45_table.md, R214 to R222). -/

namespace Sys2Proof.Machine

/-- A table read: TBLPTR moves before and after it as the mode says (R214). -/
def tableReadOp (before after : ProgAddr) (s : State) : Result :=
  match (s.moveTblptr before).tableRead with
  | .error e => .fault e
  | .ok s1 => .next ((s1.moveTblptr after).advance 2#21)

/-- A table write (R214). -/
def tableWriteOp (before after : ProgAddr) (s : State) : Result :=
  .next ((((s.moveTblptr before).tableWrite).moveTblptr after).advance 2#21)

/-- R215 TBLRD*. -/
def execTblrd (s : State) : Result := tableReadOp 0#21 0#21 s

/-- R216 TBLRD*+. -/
def execTblrdPostInc (s : State) : Result := tableReadOp 0#21 1#21 s

/-- R217 TBLRD*- (the pointer moves by -1 modulo 2^21). -/
def execTblrdPostDec (s : State) : Result := tableReadOp 0#21 0x1FFFFF#21 s

/-- R218 TBLRD+*. -/
def execTblrdPreInc (s : State) : Result := tableReadOp 1#21 0#21 s

/-- R219 TBLWT*. -/
def execTblwt (s : State) : Result := tableWriteOp 0#21 0#21 s

/-- R220 TBLWT*+. -/
def execTblwtPostInc (s : State) : Result := tableWriteOp 0#21 1#21 s

/-- R221 TBLWT*- (the pointer moves by -1 modulo 2^21). -/
def execTblwtPostDec (s : State) : Result := tableWriteOp 0#21 0x1FFFFF#21 s

/-- R222 TBLWT+*. -/
def execTblwtPreInc (s : State) : Result := tableWriteOp 1#21 0#21 s

end Sys2Proof.Machine
end

