-- ==== Sys2Proof/Machine/Events.lean ====
section
/-! DEFINITION. The environment events of R268: which one is acted upon at an instruction boundary, and what
it does. -/

namespace Sys2Proof.Machine

/-- The environment offers an event: the only way anything enters the machine from outside. -/
def State.offer (s : State) : Event → State
  | .reset kind => { s with env := { s.env with resetEvent := some kind } }
  | .wdtTimeout => { s with env := { s.env with wdtTimeout := true } }
  | .irq .high source => { s with env := { s.env with irqHigh := some source } }
  | .irq .low source => { s with env := { s.env with irqLow := some source } }

/-- What happens at a boundary instead of an instruction. -/
inductive Boundary where
  /-- A reset event (R282). -/
  | reset (kind : ResetKind)
  /-- A Watchdog time-out (R263). -/
  | wdtTimeout
  /-- An interrupt that is taken (R256, R257). -/
  | irq (level : IrqLevel)
  /-- An interrupt request that cannot be taken ends Sleep (R266). -/
  | wake
  deriving DecidableEq, Repr

/-- Whether the request of a level is asserted and can be taken (R256). -/
def State.irqReady (s : State) (level : IrqLevel) : Bool :=
  match (match level with | .high => s.env.irqHigh | .low => s.env.irqLow) with
  | some source => s.canTake level source
  | none => false

/-- The event acted upon at this boundary, in the order of R261; `none` if the next thing is an instruction or
continued Sleep. A request that cannot be taken stays offered (R256). -/
def State.boundary (s : State) : Option Boundary :=
  match s.env.resetEvent with
  | some kind => some (.reset kind)
  | none =>
    if s.env.wdtTimeout then some .wdtTimeout
    else if s.irqReady .high then some (.irq .high)
    else if s.irqReady .low then some (.irq .low)
    else if s.asleep && (s.env.irqHigh.isSome || s.env.irqLow.isSome) then some .wake
    else none

/-- A MCLR reset in Sleep: as any of its class, but TO and PD have entries of their own in R48. -/
def State.mclrAsleep (s : State) : State :=
  let t := s.mclrReset
  { t.setToPd (s.cfg.resetValues.asleepTimeOut.loadBit (s.rcon.getLsbD 3) t.draws)
      (s.cfg.resetValues.asleepPowerDown.loadBit (s.rcon.getLsbD 2) (t.draws + 1)) with
    draws := t.draws + 2 }

/-- The reset of a `ResetEvent(kind)` (R48, R282). -/
def State.resetBy (s : State) : ResetKind → State
  | .powerOn => s.powerOnReset
  | .mclr => if s.asleep then s.mclrAsleep else s.mclrReset

/-- R263: a Watchdog time-out wakes a sleeping processor with TO = 0, and resets a running one with TO = 0. -/
def State.wdtTimeout (s : State) : State :=
  if s.asleep then { s with rcon := withBit s.rcon 3 false, asleep := false }
  else { s.mclrReset with rcon := withBit s.mclrReset.rcon 3 false }

/-- Act upon an event and withdraw its offer. A reset makes the other offers moot (R261). -/
def State.takeBoundary (s : State) : Boundary → Except Fault State
  | .reset kind => .ok { s.resetBy kind with env := Env.none }
  | .wdtTimeout =>
    if s.asleep then .ok { s.wdtTimeout with env := { s.env with wdtTimeout := false } }
    else .ok { s.wdtTimeout with env := Env.none }
  | .irq .high => { s with env := { s.env with irqHigh := none } }.interruptEntry .high
  | .irq .low => { s with env := { s.env with irqLow := none } }.interruptEntry .low
  | .wake => .ok { s with asleep := false }

end Sys2Proof.Machine
end

