-- ==== Sys2Proof/Machine/Step.lean ====
section
/-! DEFINITION. One step: an environment event that is acted upon at this boundary, or continued Sleep, or one
instruction (R3, R261, R266). -/

namespace Sys2Proof.Machine

/-- One step. In Sleep with no event nothing changes (R266, D32). `exec` leaves the PC where the instruction
leaves it (R29), so nothing is added around it. -/
def step (s : State) : Host.Outcome State Fault Refusal :=
  match s.boundary with
  | some b => outcome (s.takeBoundary b)
  | none =>
    if s.asleep then .next s
    else
      match s.fetch with
      | .ok i => exec i s
      | .error e => .fault e

/-- The host's word stands where `step` fetches next (`State.loadInstruction`, Ops.lean). -/
def State.withFetchWord (s : State) (nbits w : Nat) : State := s.loadInstruction nbits w

end Sys2Proof.Machine
end

