-- ==== Sys2Proof/Safety.lean ====
section
/-! DEFINITION. What counts as a good state and a safe step, and the words the statements use: where an
instruction stores, which flags it may write. -/

namespace Sys2Proof.Machine

/-- The machine's invariant: admissible parameters; the PC even (R27); at most STACK_DEPTH return addresses
(R31); RAM and program memory in canonical form and inside their spaces (R21, R60, R61); output events only
at peripheral addresses (R74); HOLDING_REGS holding registers (R42). -/
abbrev State.Inv (s : State) : Prop :=
  s.cfg.wf = true
    ∧ s.pc.getLsbD 0 = false
    ∧ s.stack.length ≤ s.cfg.stackDepth
    ∧ Memory.wf none s.ram
    ∧ (∀ c ∈ s.ram, c.1 < 4096 ∧ ramAt s.cfg (BitVec.ofNat 12 c.1) = true)
    ∧ Memory.wf (some Config.erasedByte) s.prog
    ∧ (∀ c ∈ s.prog, c.1 < 2 ^ 21)
    ∧ (∀ c ∈ s.outputs, 0xF80 ≤ c.1 ∧ c.1 < 4096)
    ∧ s.holding.length = s.cfg.holdingRegs

/-- The next thing is an instruction: no event is acted upon and the processor is awake (R261, R266). -/
abbrev State.running (s : State) : Prop := s.boundary = none ∧ s.asleep = false

/-- A step that does not stop the machine. -/
def State.safeStep (s : State) : Prop := ∃ t, step s = .next t

/-! ### The operand of the instructions with an `a` bit -/

/-- The file operand of a byte- or bit-oriented instruction other than MOVFF: f and a (R91, R93). -/
def fileOperand : Instr → Option (Byte × Access)
  | .addwf f _ a | .addwfc f _ a | .andwf f _ a | .comf f _ a | .decf f _ a | .incf f _ a | .iorwf f _ a
  | .movf f _ a | .rlcf f _ a | .rlncf f _ a | .rrcf f _ a | .rrncf f _ a | .subfwb f _ a | .subwf f _ a
  | .subwfb f _ a | .swapf f _ a | .xorwf f _ a
  | .decfsz f _ a | .dcfsnz f _ a | .incfsz f _ a | .infsnz f _ a
  | .clrf f a | .movwf f a | .mulwf f a | .negf f a | .setf f a
  | .cpfseq f a | .cpfsgt f a | .cpfslt f a | .tstfsz f a
  | .bcf f _ a | .bsf f _ a | .btg f _ a | .btfsc f _ a | .btfss f _ a => some (f, a)
  | _ => none

/-- The instruction writes its file operand: the d bit says so, or the instruction has none and always does
(R64). -/
def writesOperand : Instr → Bool
  | .addwf _ d _ | .addwfc _ d _ | .andwf _ d _ | .comf _ d _ | .decf _ d _ | .incf _ d _ | .iorwf _ d _
  | .movf _ d _ | .rlcf _ d _ | .rlncf _ d _ | .rrcf _ d _ | .rrncf _ d _ | .subfwb _ d _ | .subwf _ d _
  | .subwfb _ d _ | .swapf _ d _ | .xorwf _ d _
  | .decfsz _ d _ | .dcfsnz _ d _ | .incfsz _ d _ | .infsnz _ d _ => d == .file
  | .clrf _ _ | .movwf _ _ | .negf _ _ | .setf _ _ | .bcf _ _ _ | .bsf _ _ _ | .btg _ _ _ => true
  | _ => false

/-- The state after the operand of `f`, `a` has been addressed and read (R62, R66, R69). -/
def State.afterOperandRead (s : State) (f : Byte) (a : Access) : State :=
  (s.operand f a).2.afterRead (s.operand f a).1

/-- The byte the operand of `f`, `a` reads as. -/
def State.operandValue (s : State) (f : Byte) (a : Access) : Byte :=
  (s.operand f a).2.valueAt (s.operand f a).1

/-- The place of a MOVFF, MOVSF destination `fd`: resolved after the source has been read and the PC has
moved, in the state `s` that leaves. -/
def State.moveDest (s : State) (fd : DataAddr) : Place := ((s.advance 4#21).resolve fd).1

/-- Where an instruction stores to data memory, computed as its meaning computes it; `none` for a form that
stores nothing there (a W destination, a compare, MOVSS onto an indirect addressing register). -/
def storePlace (i : Instr) (s : State) : Option Place :=
  match i with
  | .movff fs fd => some (((s.resolve fs).2.afterRead (s.resolve fs).1).moveDest fd)
  | .movsf zs fd => some ((s.afterRead (placeAt s.cfg (s.fsr2Offset zs))).moveDest fd)
  | .movss _ zd _ =>
    match indirectAt s.cfg (s.fsr2Offset zd) with
    | some _ => none
    | none => some (placeAt s.cfg (s.fsr2Offset zd))
  | .pushl _ => some ((s.advance 2#21).resolve s.fsr2).1
  | i =>
    match fileOperand i with
    | some (f, a) => if writesOperand i then some (s.operand f a).1 else none
    | none => none

/-- The state after a result has been put where d says, at place `p` (R64). -/
def State.afterDest (s : State) (d : Dest) (p : Place) (v : Byte) : State :=
  match d with
  | .wreg => { s with w := v }
  | .file => s.afterWrite v p

/-- A result can be put where d says. -/
def destWritable (d : Dest) (p : Place) : Prop := d = .file → p.writable = true

/-- The end of an instruction with a d bit that does not skip: the PC moved by 2, the result `r` written,
the flags updated (R119). -/
def State.fileResult (s : State) (f : Byte) (d : Dest) (a : Access) (r : Byte) (upd : Flags → Flags) : State :=
  let t := ((s.afterOperandRead f a).advance 2#21).afterDest d (s.operand f a).1 r
  { t with flags := upd t.flags }

/-- The fixed places of an operand are readable and, where the result goes there, writable. -/
def State.operandOk (s : State) (f : Byte) (d : Dest) (a : Access) : Prop :=
  (s.operand f a).1.readable = true ∧ destWritable d (s.operand f a).1

/-- How a move from place `src` to place `dst` faults (R67, R73): on the read, else on the write. -/
def movesFault (src dst : Place) (r : Result) : Prop :=
  (∀ addr, src = .unimplemented addr → r = .fault (.unimplementedData addr))
    ∧ (src.readable = true →
      (∀ addr, dst = .unimplemented addr → r = .fault (.unimplementedData addr))
        ∧ (dst = .sfr .stkptr → r = .fault .unsupportedStackPointerWrite))

/-- How a skip instruction ends (R30, R149): `t` is the state with its other effects, `s` the one it began in,
`c` the skip condition. Without a skip the PC moves by 2; with one it moves over the next instruction, whose
length its first word tells; a skip whose next word is out of range faults (R72). -/
def skipsFrom (s t : State) (c : Bool) (r : Result) : Prop :=
  (c = false → r = .next (t.advance 2#21))
    ∧ (c = true → ∀ w2, s.fetchWord (s.pc + 2#21) = some w2 →
        r = .next (t.advance (if isTwoWord s.cfg.xinst w2 = true then 6#21 else 4#21)))
    ∧ (c = true → s.fetchWord (s.pc + 2#21) = none → r = .fault (.fetchOutOfRange (s.pc + 2#21)))

/-! ### Flags -/

/-- Which of the five flags an instruction may write by its own "Status Affected" (R24): `true` is "may". -/
def flagsAffected : Instr → Flags
  | .addwf _ _ _ | .addwfc _ _ _ | .decf _ _ _ | .incf _ _ _ | .negf _ _ | .subfwb _ _ _ | .subwf _ _ _
  | .subwfb _ _ _ | .addlw _ | .sublw _ | .reset | .ret true | .retfie true =>
    { n := true, ov := true, z := true, dc := true, c := true }
  | .andwf _ _ _ | .comf _ _ _ | .iorwf _ _ _ | .movf _ _ _ | .xorwf _ _ _ | .rlncf _ _ _ | .rrncf _ _ _
  | .andlw _ | .iorlw _ | .xorlw _ => { n := true, ov := false, z := true, dc := false, c := false }
  | .rlcf _ _ _ | .rrcf _ _ _ => { n := true, ov := false, z := true, dc := false, c := true }
  | .clrf _ _ => { n := false, ov := false, z := true, dc := false, c := false }
  | .daw => { n := false, ov := false, z := false, dc := false, c := true }
  | _ => { n := false, ov := false, z := false, dc := false, c := false }

/-- The implemented bits of a core register that can be written (R44, R67). -/
def sfrMask (cfg : Config) : Sfr → Byte
  | .tosu | .pclatu | .tblptru => 0x1F#8
  | .status => Flags.toByte { n := true, ov := true, z := true, dc := true, c := true } cfg.statusLayout
  | .fsr0h | .fsr1h | .fsr2h | .bsr => 0x0F#8
  | .stkptr => 0x00#8
  | .pcl => 0xFE#8
  | .tosh | .tosl | .pclath | .tblptrh | .tblptrl | .tablat | .prodh | .prodl | .intcon | .fsr0l | .wreg
  | .fsr1l | .fsr2l | .rcon => 0xFF#8

/-! ### The address column of R44 -/

/-- The suggested data address of a core register (R44). -/
def sfrAddr : Sfr → DataAddr
  | .tosu => 0xFFF#12
  | .tosh => 0xFFE#12
  | .tosl => 0xFFD#12
  | .stkptr => 0xFFC#12
  | .pclatu => 0xFFB#12
  | .pclath => 0xFFA#12
  | .pcl => 0xFF9#12
  | .tblptru => 0xFF8#12
  | .tblptrh => 0xFF7#12
  | .tblptrl => 0xFF6#12
  | .tablat => 0xFF5#12
  | .prodh => 0xFF4#12
  | .prodl => 0xFF3#12
  | .intcon => 0xFF2#12
  | .fsr0h => 0xFEA#12
  | .fsr0l => 0xFE9#12
  | .wreg => 0xFE8#12
  | .fsr1h => 0xFE2#12
  | .fsr1l => 0xFE1#12
  | .bsr => 0xFE0#12
  | .fsr2h => 0xFDA#12
  | .fsr2l => 0xFD9#12
  | .status => 0xFD8#12
  | .rcon => 0xFD0#12

/-- The suggested data address of an indirect addressing register (R44). -/
def indirectAddr (n : Fsr) (mode : IndirectMode) : DataAddr :=
  (match n with | .fsr0 => 0xFEF#12 | .fsr1 => 0xFE7#12 | .fsr2 => 0xFDF#12)
    - (match mode with | .indf => 0#12 | .postinc => 1#12 | .postdec => 2#12 | .preinc => 3#12 | .plusw => 4#12)

/-! ### Resets -/

/-- What an entry of R48 says of a register that held `old` and holds `new` after the reset: nothing, of one that
becomes unknown. -/
def ResetTo.Loads {width : Nat} (e : ResetTo width) (old new : BitVec width) : Prop :=
  match e with
  | .value v => new = v
  | .unknown => True
  | .unchanged => new = old

/-- `Reset(class)` from `s` to `t`, for the class's column `c` of R48 (R282). TO and PD, which R48 gives by the
kind of reset, and the stack flags are said apart. Bit 0 of the PC is 0 (R27). -/
def resetLoads (c : ResetColumn) (s t : State) : Prop :=
  t.pc = s.cfg.resetVector.extractLsb' 1 20 ++ 0#1 ∧ t.stack = []
    ∧ c.pclatu.Loads s.pclatu t.pclatu ∧ c.pclath.Loads s.pclath t.pclath
    ∧ c.w.Loads s.w t.w ∧ c.status.Loads s.flags.bits t.flags.bits ∧ c.bsr.Loads s.bsr t.bsr
    ∧ (∀ n, c.fsrh.Loads ((s.fsr n).extractLsb' 8 4) ((t.fsr n).extractLsb' 8 4)
        ∧ c.fsrl.Loads ((s.fsr n).extractLsb' 0 8) ((t.fsr n).extractLsb' 0 8))
    ∧ c.prod.Loads s.prodh t.prodh ∧ c.prod.Loads s.prodl t.prodl
    ∧ c.tblptr.Loads s.tblptr t.tblptr ∧ c.tablat.Loads s.tablat t.tablat
    ∧ c.gieh.Loads (BitVec.ofBool s.gieh) (BitVec.ofBool t.gieh)
    ∧ c.giel.Loads (BitVec.ofBool s.giel) (BitVec.ofBool t.giel)
    ∧ c.ipen.Loads (BitVec.ofBool s.ipen) (BitVec.ofBool t.ipen)
    ∧ c.shadow.Loads s.ws t.ws ∧ c.shadow.Loads s.statuss t.statuss ∧ c.shadow.Loads s.bsrs t.bsrs
    ∧ t.holding.length = s.holding.length
    ∧ (∀ n, n < s.holding.length → c.holding.Loads (s.holding.getD n 0#8) (t.holding.getD n 0#8))
    ∧ t.wdt = 0 ∧ t.wdtPost = 0 ∧ t.asleep = false
    ∧ t.prog = s.prog ∧ t.cfg = s.cfg ∧ t.outputs = s.outputs

/-- What both columns of the suggested table of R48 load: all but TO, PD, the stack and the pc. -/
def loadedByTable (t : State) : Prop :=
  t.pclatu = 0#5 ∧ t.pclath = 0x00#8 ∧ t.bsr = 0#4 ∧ t.tblptr = 0x000000#21 ∧ t.tablat = 0x00#8
    ∧ (∀ n, (t.fsr n).extractLsb' 8 4 = 0#4) ∧ t.gieh = false ∧ t.giel = false ∧ t.ipen = false

/-- What the MCLR column of the suggested table of R48 keeps. -/
def keptByMclr (s t : State) : Prop :=
  t.w = s.w ∧ t.flags = s.flags ∧ t.prodh = s.prodh ∧ t.prodl = s.prodl
    ∧ ∀ n, (t.fsr n).extractLsb' 0 8 = (s.fsr n).extractLsb' 0 8

/-- What every reset of the MCLR class keeps: RAM, STKFUL and STKUNF (R48), and the bits of INTCON and RCON that R48
does not list (notes/assumptions/4.md). -/
def keptByMclrClass (s t : State) : Prop :=
  (∀ addr, t.ramByte addr = s.ramByte addr) ∧ t.stkful = s.stkful ∧ t.stkunf = s.stkunf
    ∧ (∀ n < 6, t.intcon.getLsbD n = s.intcon.getLsbD n)
    ∧ ∀ n < 7, n ≠ 2 → n ≠ 3 → t.rcon.getLsbD n = s.rcon.getLsbD n

/-! ### Decimal numbers -/

/-- Both nibbles of a byte are decimal digits. -/
def isBcd (v : Byte) : Prop := v.toNat % 16 ≤ 9 ∧ v.toNat / 16 ≤ 9

/-- The number two packed decimal digits stand for. -/
def bcdValue (v : Byte) : Nat := v.toNat / 16 * 10 + v.toNat % 16

end Sys2Proof.Machine
end

