-- ==== Sys2Proof/Certificates/Slice0/Obligations.lean ====
section
/-! DEFINITION. The statements for the provers. Each formalises rules of spec/ (OBLIGATIONS.json cites them).
Statements about the PC of every state use `s.pc.getLsbD 0 = false` (R27), which `StepKeepsInvariant` and
`ResetMeetsInvariant` show of every state a run reaches. -/

open Sys2Proof Sys2Proof.Machine

/-! ## Encoding -/

/-- R99, R100, R104: decoding the bytes of a well-formed instruction gives it back, whatever follows. -/
def Obligations.DecodeEncodeRoundTrip : Prop :=
  ∀ (xinst : Bool) (i : Instr) (rest : List Byte), wellFormed xinst i = true →
    decode xinst (wordsBytes (encode i) ++ rest) = .ok (i, rest)

/-- R99, R100, R103, R104: what decodes is the encoding of what it decodes to (no bit of a word is lost, each
instruction has one encoding) and is well-formed. -/
def Obligations.EncodeDecodeRoundTrip : Prop :=
  ∀ (xinst : Bool) (bytes : List Byte) (i : Instr) (rest : List Byte), decode xinst bytes = .ok (i, rest) →
    bytes = wordsBytes (encode i) ++ rest ∧ wellFormed xinst i = true

/-- R102: the reserved first words are exactly the listed ones. Rests on the spec's own D12, D13, D16. -/
def Obligations.ReservedFirstWords : Prop :=
  ∀ (xinst : Bool) (w : Word) (rest : List Byte),
    decode xinst (wordsBytes [w] ++ rest) = .error (.reserved w) ↔
      (w.toNat = 0x0001 ∨ w.toNat = 0x0002 ∨ (0x0015 ≤ w.toNat ∧ w.toNat ≤ 0x00FE)
        ∨ (0xEE40 ≤ w.toNat ∧ w.toNat ≤ 0xEEFF) ∨ (0xEE30 ≤ w.toNat ∧ w.toNat ≤ 0xEE3F)
        ∨ (xinst = false ∧ (w.toNat = 0x0014 ∨ (0xE800 ≤ w.toNat ∧ w.toNat ≤ 0xEBFF))))

/-- R105, R106 (a): a two-word first word that is not reserved is malformed exactly when its second word lacks
1111 in bits 15:12, or, for LFSR, 0000 in bits 11:8. Rests on the spec's own D14, D16. -/
def Obligations.MalformedSecondWords : Prop :=
  ∀ (xinst : Bool) (w w2 : Word) (rest : List Byte), isTwoWord xinst w = true →
    ¬ (0xEE30 ≤ w.toNat ∧ w.toNat ≤ 0xEE3F) →
    (decode xinst (wordsBytes [w, w2] ++ rest) = .error (.malformedSecondWord w2) ↔
      (w2.toNat / 4096 ≠ 15 ∨ (w.toNat / 256 = 0xEE ∧ w2.toNat / 256 % 16 ≠ 0)))

/-- R97: `IsTwoWord` is true of the listed first words and no others, and it alone tells how many words the
decoder consumes. -/
def Obligations.TwoWordTellsLength : Prop :=
  (∀ (xinst : Bool) (w : Word), isTwoWord xinst w = true ↔
      (w.toNat / 2 ^ 12 = 0b1100 ∨ w.toNat / 2 ^ 9 = 0b1110110 ∨ w.toNat / 2 ^ 8 = 0b11101111
        ∨ w.toNat / 2 ^ 6 = 0b1110111000 ∨ (xinst = true ∧ w.toNat / 2 ^ 8 = 0b11101011)))
    ∧ ∀ (xinst : Bool) (w : Word) (tail : List Byte) (i : Instr) (rest : List Byte),
      decode xinst (wordsBytes [w] ++ tail) = .ok (i, rest) →
      i.words = (if isTwoWord xinst w = true then 2 else 1)
        ∧ 2 + tail.length = 2 * i.words + rest.length

/-- R104: the standard instructions decode identically for both values of XINST; the extended ones decode only
with XINST = 1. Rests on the spec's own D13. -/
def Obligations.XinstGatesOnlyExtended : Prop :=
  ∀ (bytes : List Byte) (i : Instr) (rest : List Byte),
    (i.isExtended = false → (decode true bytes = .ok (i, rest) ↔ decode false bytes = .ok (i, rest)))
      ∧ (i.isExtended = true → decode false bytes ≠ .ok (i, rest))

/-- R100: a few words written out from the table decode to the instructions they stand for. -/
def Obligations.TableWordsDecode : Prop :=
  decode false [0x20#8, 0x24#8] = .ok (.addwf 0x20#8 .wreg .access, [])
    ∧ decode false [0x20#8, 0x8F#8] = .ok (.bsf 0x20#8 7#3 .banked, [])
    ∧ decode false [0x23#8, 0xEE#8, 0xAB#8, 0xF0#8] = .ok (.lfsr .fsr2 0x3AB#12, [])
    ∧ decode true [0x85#8, 0xEB#8, 0x06#8, 0xF0#8] = .ok (.movss 0x05#7 0x06#7 0#5, [])

/-! ## Steps -/

/-- R70, R71, R72: a program byte is the one stored at its address, an instruction word is the byte above and the byte
at its address, where there is program memory. R99: a running machine whose bytes at the PC (four, or two at the end of
program memory) decode to an instruction runs exactly that instruction; nothing is added around it. Rests on the
spec's own D3. -/
def Obligations.StepRunsDecodedInstruction : Prop :=
  ∀ (s : State),
    (∀ (a : ProgAddr) (v : Byte), Memory.wf (some Config.erasedByte) s.prog →
        let t := { s with prog := s.prog.store (some Config.erasedByte) a.toNat v }
        t.progByte a = v ∧ ∀ b, b ≠ a → t.progByte b = s.progByte b)
      ∧ (∀ (a : ProgAddr), s.fetchWord a =
          if a.toNat < s.cfg.progBytes then some (s.progByte (a + 1#21) ++ s.progByte a) else none)
      ∧ ∀ (i : Instr) (rest : List Byte), s.running → s.pc.toNat < s.cfg.progBytes →
        decode s.cfg.xinst
          (if (s.pc + 2#21).toNat < s.cfg.progBytes then
            [s.progByte s.pc, s.progByte (s.pc + 1#21), s.progByte (s.pc + 2#21), s.progByte (s.pc + 2#21 + 1#21)]
           else [s.progByte s.pc, s.progByte (s.pc + 1#21)]) = .ok (i, rest) →
        wellFormed s.cfg.xinst i = true → step s = exec i s

/-- R72, R102, R105, R252: the faults of fetch and decode, in their order. Rests on the spec's own D3, D12,
D14. -/
def Obligations.FetchFaultsInOrder : Prop :=
  ∀ (s : State), s.running →
    (s.cfg.progBytes ≤ s.pc.toNat → step s = .fault (.fetchOutOfRange s.pc))
      ∧ (∀ w, s.fetchWord s.pc = some w →
          decode s.cfg.xinst (wordsBytes [w]) = .error (.reserved w) →
          step s = .fault (.reservedInstruction w))
      ∧ (∀ w, s.fetchWord s.pc = some w → s.fetchWord (s.pc + 2#21) = none →
          isTwoWord s.cfg.xinst w = true → decode s.cfg.xinst (wordsBytes [w]) ≠ .error (.reserved w) →
          step s = .fault (.fetchOutOfRange (s.pc + 2#21)))
      ∧ (∀ w w2, s.fetchWord s.pc = some w → s.fetchWord (s.pc + 2#21) = some w2 →
          decode s.cfg.xinst (wordsBytes [w, w2]) = .error (.malformedSecondWord w2) →
          step s = .fault (.malformedSecondWord s.pc w2))

/-- R27, R31, R42, R60, R74: every step keeps the machine's invariant. Which parameters are admissible (`Config.wf`, a
part of it) is the model's reading (notes/assumptions/2.md). Rests on the spec's own D2, D8. -/
def Obligations.StepKeepsInvariant : Prop :=
  ∀ (s t : State), s.Inv → step s = .next t → t.Inv

/-- The state after reset, with the suggested parameters (the model's choice, notes/assumptions/1.md), meets the
invariant. -/
def Obligations.ResetMeetsInvariant : Prop := State.reset.Inv

/-- R46, R82: no step changes program memory, XINST or any other parameter. Rests on the spec's own D24, D26. -/
def Obligations.StepKeepsProgramAndParameters : Prop :=
  ∀ (s t : State), step s = .next t → t.prog = s.prog ∧ t.cfg = s.cfg

/-- R48, R46: the power-on values that the table of R48 gives (TOS among them: it reads 000000h). That table and the
vector are suggested parameters, which State.reset takes by the model's choice (notes/assumptions/1.md). Rests on the
spec's own D8, D9. -/
def Obligations.ResetValuesOfTable : Prop :=
  let s := State.reset
  s.pc = s.cfg.resetVector ∧ s.cfg.resetVector = 0x000000#21 ∧ s.stack = []
    ∧ s.readSfr .tosu = 0x00#8 ∧ s.readSfr .tosh = 0x00#8 ∧ s.readSfr .tosl = 0x00#8
    ∧ s.readSfr .pclatu = 0x00#8 ∧ s.readSfr .pclath = 0x00#8 ∧ s.readSfr .bsr = 0x00#8
    ∧ s.readSfr .fsr0h = 0x00#8 ∧ s.readSfr .fsr1h = 0x00#8 ∧ s.readSfr .fsr2h = 0x00#8
    ∧ s.tblptr = 0x000000#21 ∧ s.tablat = 0x00#8
    ∧ s.gieh = false ∧ s.giel = false ∧ s.ipen = false
    ∧ s.rcon.getLsbD 3 = true ∧ s.rcon.getLsbD 2 = true
    ∧ s.wdt = 0 ∧ s.wdtPost = 0 ∧ s.asleep = false ∧ s.cfg.xinst = false

/-! ## Arithmetic -/

/-- R38: Add8 is integer addition of the two bytes and the carry; OV tells when the signed sum leaves
-128..127. Rests on the spec's own D33. -/
def Obligations.Add8IsIntegerSum : Prop :=
  ∀ (a b : Byte) (cin : Bool),
    let r := add8 a b cin
    r.1.toNat + 256 * r.2.c.toNat = a.toNat + b.toNat + cin.toNat
      ∧ (r.2.dc = true ↔ 16 ≤ a.toNat % 16 + b.toNat % 16 + cin.toNat)
      ∧ (r.2.z = true ↔ r.1 = 0#8)
      ∧ r.2.n = r.1.getLsbD 7
      ∧ (r.2.ov = true ↔ (a.toInt + b.toInt + cin.toNat < -128 ∨ 127 < a.toInt + b.toInt + cin.toNat))

/-- R39: Sub8 is a - b - bin; C = 1 and DC = 1 mean no borrow; OV is set exactly when the signed difference
lies outside -128..127. Rests on the spec's own D33. -/
def Obligations.Sub8IsIntegerDifference : Prop :=
  ∀ (a b : Byte) (bin : Bool),
    let r := sub8 a b bin
    (r.1.toNat : Int) = ((a.toNat : Int) - b.toNat - bin.toNat) % 256
      ∧ (r.2.c = true ↔ b.toNat + bin.toNat ≤ a.toNat)
      ∧ (r.2.dc = true ↔ b.toNat % 16 + bin.toNat ≤ a.toNat % 16)
      ∧ (r.2.z = true ↔ r.1 = 0#8)
      ∧ r.2.n = r.1.getLsbD 7
      ∧ (r.2.ov = true ↔ (a.toInt - b.toInt - bin.toNat < -128 ∨ 127 < a.toInt - b.toInt - bin.toNat))

/-- R40: SetZN(r) sets Z and N from r; C, DC and OV keep their values. -/
def Obligations.SetZNWritesOnlyZAndN : Prop :=
  ∀ (r : Byte) (fl : Flags),
    setZN r fl = { n := r.getLsbD 7, ov := fl.ov, z := decide (r = 0#8), dc := fl.dc, c := fl.c }

/-- R181, R200 (with DawCarrySticky, D18): ADDLW then DAW is packed decimal addition, with the hundred in C. -/
def Obligations.AddThenAdjustIsDecimalSum : Prop :=
  ∀ (s : State) (k : Byte), s.cfg.dawCarrySticky = true → isBcd s.w → isBcd k →
    ∃ t u, exec (.addlw k) s = .next t ∧ exec .daw t = .next u
      ∧ isBcd u.w ∧ bcdValue u.w + 100 * u.flags.c.toNat = bcdValue s.w + bcdValue k

/-- R181: DAW, W and C by the rule's two steps, nothing else but the PC. Rests on the spec's own D18. -/
def Obligations.DawAdjusts : Prop :=
  ∀ (s : State), s.pc.getLsbD 0 = false →
    let t := s.w.toNat + (if 9 < s.w.toNat % 16 ∨ s.flags.dc = true then 6 else 0)
    let adj := 9 < t / 16 ∨ s.flags.c = true
    exec .daw s = .next { s with
      w := BitVec.ofNat 8 (if adj then t + 96 else t)
      flags := { s.flags with
        c := if s.cfg.dawCarrySticky = true then decide adj
          else decide (adj ∧ 16 ≤ t / 16 + 6) }
      pc := s.pc + 2#21 }

/-! ## Addressing and data memory -/

/-- R62, R63, R66: the effective address; and the place of a data address that is not resolved: a core register,
RAM, a peripheral address or none, and nowhere for an indirect addressing register (R69). `sfrAddr` and
`indirectAddr` are the suggested addresses of R44. The parameters are R5's (notes/assumptions/2.md). Rests on the
spec's own D4, D5, D6, D29, D30. -/
def Obligations.EffectiveAddressAndDispatch : Prop :=
  (∀ (s : State) (f : Byte),
    s.ea f .banked = s.bsr ++ f
      ∧ (s.cfg.xinst = true → f.toNat ≤ 0x5F → s.ea f .access = s.fsr2 + f.setWidth 12)
      ∧ (s.cfg.xinst = false → f.toNat ≤ 0x5F → (s.ea f .access).toNat = f.toNat)
      ∧ (0x5F < f.toNat → s.ea f .access = accessAt s.cfg.accessMap f
        ∧ (s.cfg.accessMap = AccessPiece.suggested →
          (s.ea f .access).toNat = if f.toNat ≤ 0x7F then f.toNat else 0xF00 + f.toNat)))
    ∧ (∀ (cfg : Config) (addr : DataAddr),
      (∀ r, sfrAt cfg addr = some r → placeAt cfg addr = .sfr r)
        ∧ (indirectAt cfg addr ≠ none → placeAt cfg addr = .nowhere)
        ∧ (sfrAt cfg addr = none → indirectAt cfg addr = none →
          ((∃ g ∈ cfg.ramImplemented, g.first.toNat ≤ addr.toNat ∧ addr.toNat ≤ g.last.toNat) →
              placeAt cfg addr = .ram addr)
            ∧ ((¬ ∃ g ∈ cfg.ramImplemented, g.first.toNat ≤ addr.toNat ∧ addr.toNat ≤ g.last.toNat) →
              placeAt cfg addr = if 0xF80 ≤ addr.toNat then .peripheral addr else .unimplemented addr)))
    ∧ ∀ (cfg : Config), cfg.sfrMap = SfrMap.suggested →
      (∀ r, sfrAt cfg (sfrAddr r) = some r)
        ∧ (∀ n mode, indirectAt cfg (indirectAddr n mode) = some (n, mode))
        ∧ ∀ addr, (∀ r, sfrAddr r ≠ addr) → (∀ n mode, indirectAddr n mode ≠ addr) →
          sfrAt cfg addr = none ∧ indirectAt cfg addr = none

/-- R69: an operand that is no indirect addressing register, or is reached in Indexed Literal Offset mode,
changes nothing; an indirect one uses and updates its FSR as its mode says, once. An indirect addressing register
that is not resolved reads 00h, and a write to it is discarded. Rests on the spec's own D4, D29. -/
def Obligations.OperandAddressing : Prop :=
  ∀ (s : State) (f : Byte) (a : Access),
    (indirectAt s.cfg (s.ea f a) = none → s.operand f a = (placeAt s.cfg (s.ea f a), s))
      ∧ (s.indexed f a = true → indirectAt s.cfg (s.ea f a) ≠ none → s.operand f a = (.nowhere, s))
      ∧ (s.indexed f a = false → ∀ n,
          (indirectAt s.cfg (s.ea f a) = some (n, .indf) → s.operand f a = (placeAt s.cfg (s.fsr n), s))
          ∧ (indirectAt s.cfg (s.ea f a) = some (n, .postinc) →
              s.operand f a = (placeAt s.cfg (s.fsr n), s.setFsr n (s.fsr n + 1#12)))
          ∧ (indirectAt s.cfg (s.ea f a) = some (n, .postdec) →
              s.operand f a = (placeAt s.cfg (s.fsr n), s.setFsr n (s.fsr n - 1#12)))
          ∧ (indirectAt s.cfg (s.ea f a) = some (n, .preinc) →
              s.operand f a = (placeAt s.cfg (s.fsr n + 1#12), s.setFsr n (s.fsr n + 1#12)))
          ∧ (indirectAt s.cfg (s.ea f a) = some (n, .plusw) →
              s.operand f a = (placeAt s.cfg (s.fsr n + s.w.signExtend 12), s)))
      ∧ (∀ addr, indirectAt s.cfg addr ≠ none → placeAt s.cfg addr = .nowhere)
      ∧ s.readPlace .nowhere = .ok (0x00#8, s) ∧ ∀ v, s.writePlace .nowhere v = .ok s

/-- R66, R67, R73: every place can be read but an unimplemented address, and written but that and STKPTR; then a read
answers `valueAt` and `afterRead`, a write `afterWrite`, the words of the instruction statements. A read of RAM answers
the stored byte and has no side effect; a byte written to RAM is read back there, every other byte of RAM reads as
before, and the write changes nothing else. R74: a write to a peripheral address adds the one event (address, byte) to
the outputs, a read of one takes the next answer of the environment and uses it up; neither does anything else (the
form of both is the model's, notes/assumptions/9.md). Rests on the spec's own D8, D20, D27, D30. -/
def Obligations.RamReadAfterWrite : Prop :=
  ∀ (s : State) (p : Place) (addr : DataAddr) (v : Byte),
    (p.readable = true ↔ ∀ b, p ≠ .unimplemented b)
      ∧ (p.writable = true ↔ p ≠ .sfr .stkptr ∧ ∀ b, p ≠ .unimplemented b)
      ∧ (p.readable = true → s.readPlace p = .ok (s.valueAt p, s.afterRead p))
      ∧ (p.writable = true → s.writePlace p v = .ok (s.afterWrite v p))
      ∧ s.readPlace (.ram addr) = .ok (s.ramByte addr, s)
      ∧ (s.afterWrite v (.ram addr)).ramByte addr = v
      ∧ (∀ b, b ≠ addr → (s.afterWrite v (.ram addr)).ramByte b = s.ramByte b)
      ∧ s.afterWrite v (.ram addr) = { s with ram := (s.afterWrite v (.ram addr)).ram }
      ∧ s.writePlace (.peripheral addr) v = .ok { s with outputs := (addr.toNat, v) :: s.outputs }
      ∧ s.readPlace (.peripheral addr)
        = .ok (Config.peripheralRead s.draws addr, { s with draws := s.draws + 1 })

/-- R44, R66, R67, R32. A read of a core register other than PCL answers its value and has no side effect; what each
reads as is the last column of R44, unimplemented bits 0, for STATUS by the bits of `StatusLayout` (R23). A core register
keeps the implemented bits of what is written to it; no other core register changes and no other part of the state. All
eight bits of INTCON and RCON are storage (D27; notes/assumptions/4.md). With an empty stack the TOS bytes read 00h and a
write to them is lost. PCL, and the write of STKPTR, are left to PclAccess and OperandFaults. That STKFUL and STKUNF are
stored bits is the model's reading of R44 (notes/assumptions/13.md). Rests on the spec's own D5, D7, D8, D27. -/
def Obligations.CoreRegisterReadAfterWrite : Prop :=
  ∀ (s : State),
    let l := s.cfg.statusLayout
    let num := fun r : Sfr => (s.readSfr r).toNat
    (∀ r, r ≠ .pcl → s.readPlace (.sfr r) = .ok (s.readSfr r, s))
      ∧ (s.stack = [] → num .tosu = 0 ∧ num .tosh = 0 ∧ num .tosl = 0)
      ∧ (∀ tos rest, s.stack = tos :: rest →
          num .tosu = tos.toNat / 2 ^ 16 ∧ num .tosh = tos.toNat / 2 ^ 8 % 2 ^ 8 ∧ num .tosl = tos.toNat % 2 ^ 8)
      ∧ (s.stack.length < 32 →
          num .stkptr = 2 ^ 7 * s.stkful.toNat + 2 ^ 6 * s.stkunf.toNat + s.stack.length)
      ∧ num .pclatu = s.pclatu.toNat ∧ s.readSfr .pclath = s.pclath
      ∧ num .tblptru = s.tblptr.toNat / 2 ^ 16 ∧ num .tblptrh = s.tblptr.toNat / 2 ^ 8 % 2 ^ 8
      ∧ num .tblptrl = s.tblptr.toNat % 2 ^ 8 ∧ s.readSfr .tablat = s.tablat
      ∧ s.readSfr .prodh = s.prodh ∧ s.readSfr .prodl = s.prodl
      ∧ s.readSfr .intcon = s.intcon ∧ s.readSfr .rcon = s.rcon
      ∧ num .fsr0h = s.fsr0.toNat / 2 ^ 8 ∧ num .fsr0l = s.fsr0.toNat % 2 ^ 8
      ∧ num .fsr1h = s.fsr1.toNat / 2 ^ 8 ∧ num .fsr1l = s.fsr1.toNat % 2 ^ 8
      ∧ num .fsr2h = s.fsr2.toNat / 2 ^ 8 ∧ num .fsr2l = s.fsr2.toNat % 2 ^ 8
      ∧ s.readSfr .wreg = s.w ∧ num .bsr = s.bsr.toNat
      ∧ s.readSfr .status = s.flags.toByte l
      ∧ (Config.layoutWf l = true →
          (s.readSfr .status).getLsbD l.n = s.flags.n ∧ (s.readSfr .status).getLsbD l.ov = s.flags.ov
          ∧ (s.readSfr .status).getLsbD l.z = s.flags.z ∧ (s.readSfr .status).getLsbD l.dc = s.flags.dc
          ∧ (s.readSfr .status).getLsbD l.c = s.flags.c
          ∧ ∀ k, k ∉ [l.n.val, l.ov.val, l.z.val, l.dc.val, l.c.val] → (s.readSfr .status).getLsbD k = false)
      ∧ ∀ (v : Byte) (r : Sfr), r ≠ .pcl → r ≠ .stkptr →
        let t := s.writeSfr v r
        s.writePlace (.sfr r) v = .ok t
          ∧ if s.stack = [] ∧ (r = .tosu ∨ r = .tosh ∨ r = .tosl) then t = s
            else t.readSfr r = v &&& sfrMask s.cfg r
              ∧ (∀ r', r' ≠ r → t.readSfr r' = s.readSfr r') ∧ (r ≠ .status → t.flags = s.flags)
              ∧ t.pc = s.pc ∧ t.stack.length = s.stack.length ∧ t.stack.tail = s.stack.tail
              ∧ t.stkful = s.stkful ∧ t.stkunf = s.stkunf
              ∧ t.ws = s.ws ∧ t.statuss = s.statuss ∧ t.bsrs = s.bsrs
              ∧ t.holding = s.holding ∧ t.wdt = s.wdt ∧ t.wdtPost = s.wdtPost ∧ t.asleep = s.asleep
              ∧ t.ram = s.ram ∧ t.ramEpoch = s.ramEpoch ∧ t.draws = s.draws ∧ t.outputs = s.outputs
              ∧ t.env = s.env ∧ t.prog = s.prog ∧ t.cfg = s.cfg

/-- R68 (a), (b): a read of PCL gives the low byte of pc + 2 and loads PCLATH and PCLATU; a write of v to PCL
loads PCLATU : PCLATH : (v and FEh) into the PC. The bytes a read loads are those of the PC that "will have
incremented" (the model's reading, notes/assumptions/8.md). Rests on the spec's own D28. -/
def Obligations.PclAccess : Prop :=
  ∀ (s : State) (v : Byte),
    s.readPlace (.sfr .pcl) = .ok ((s.pc + 2#21).extractLsb' 0 8,
        { s with pclath := (s.pc + 2#21).extractLsb' 8 8, pclatu := (s.pc + 2#21).extractLsb' 16 5 })
      ∧ s.writePlace (.sfr .pcl) v = .ok { s with pc := s.pclatu ++ s.pclath ++ (v &&& 0xFE#8) }

/-- R67, R73: every byte- or bit-oriented instruction, MOVFF, MOVSF, MOVSS and PUSHL fault on an unimplemented
address they read or write, and on STKPTR when they write it; a read fault comes first (R252). A destination that
R284 forbids, and a MOVSS onto an indirect addressing register, are statements of their own. That PUSHL's address goes
through `Resolve` (notes/assumptions/16.md), and that an indirect access whose FSR points at STKPTR is an access to
STKPTR (notes/assumptions/15.md), are the model's readings. Rests on the spec's own D8, D30. -/
def Obligations.OperandFaults : Prop :=
  ∀ (s : State),
    (∀ (i : Instr) (f : Byte) (a : Access), fileOperand i = some (f, a) →
      (∀ addr, (s.operand f a).1 = .unimplemented addr → exec i s = .fault (.unimplementedData addr))
        ∧ ((s.operand f a).1 = .sfr .stkptr → writesOperand i = true →
            exec i s = .fault .unsupportedStackPointerWrite))
      ∧ (∀ (fs fd : DataAddr), forbiddenDestination s.cfg fd = false →
        let q := s.resolve fs
        let p := (q.2.afterRead q.1).moveDest fd
        movesFault q.1 p (exec (.movff fs fd) s))
      ∧ (∀ (zs : BitVec 7) (fd : DataAddr), forbiddenDestination s.cfg fd = false →
        let q := placeAt s.cfg (s.fsr2 + zs.setWidth 12)
        movesFault q ((s.afterRead q).moveDest fd) (exec (.movsf zs fd) s))
      ∧ (∀ (zs zd : BitVec 7) (x : BitVec 5), forbiddenDestination s.cfg (s.fsr2 + zd.setWidth 12) = false →
        indirectAt s.cfg (s.fsr2 + zd.setWidth 12) = none →
        movesFault (placeAt s.cfg (s.fsr2 + zs.setWidth 12)) (placeAt s.cfg (s.fsr2 + zd.setWidth 12))
          (exec (.movss zs zd x) s))
      ∧ ∀ (k : Byte),
        (∀ addr, ((s.advance 2#21).resolve s.fsr2).1 = .unimplemented addr →
          exec (.pushl k) s = .fault (.unimplementedData addr))
          ∧ (((s.advance 2#21).resolve s.fsr2).1 = .sfr .stkptr →
            exec (.pushl k) s = .fault .unsupportedStackPointerWrite)

/-! ## Byte-oriented instructions -/

/-- R120, R121, R125, R126, R138, R139, R140: the arithmetic instructions with a d bit, on every operand that
can be read and, with d = 1, written; and their encodings. With d = 1 onto STATUS the flags win over the stored
result (R68 (e)). Rests on the spec's own D34. -/
def Obligations.ArithmeticFileResults : Prop :=
  ∀ (s : State) (f : Byte) (d : Dest) (a : Access), s.operandOk f d a →
    let x := s.operandValue f a
    let res := fun r : Byte × Flags => Host.Outcome.next (s.fileResult f d a r.1 (fun _ => r.2))
    let word := fun op : Nat => [BitVec.ofNat 16 (op * 2 ^ 10 + (if d = .file then 2 ^ 9 else 0)
      + (if a = .banked then 2 ^ 8 else 0) + f.toNat)]
    exec (.addwf f d a) s = res (add8 s.w x false)
      ∧ exec (.addwfc f d a) s = res (add8 s.w x s.flags.c)
      ∧ exec (.decf f d a) s = res (sub8 x 1#8 false)
      ∧ exec (.incf f d a) s = res (add8 x 1#8 false)
      ∧ exec (.subfwb f d a) s = res (sub8 s.w x (!s.flags.c))
      ∧ exec (.subwf f d a) s = res (sub8 x s.w false)
      ∧ exec (.subwfb f d a) s = res (sub8 x s.w (!s.flags.c))
      ∧ encode (.addwf f d a) = word 0b001001 ∧ encode (.addwfc f d a) = word 0b001000
      ∧ encode (.decf f d a) = word 0b000001 ∧ encode (.incf f d a) = word 0b001010
      ∧ encode (.subfwb f d a) = word 0b010101 ∧ encode (.subwf f d a) = word 0b010111
      ∧ encode (.subwfb f d a) = word 0b010110

/-- R122, R124, R127, R128, R142: the logic instructions and MOVF, with their encodings. With d = 1 onto STATUS, Z
and N are the flags' and C, DC and OV the stored result's (R68 (e)). Rests on the spec's own D34. -/
def Obligations.LogicFileResults : Prop :=
  ∀ (s : State) (f : Byte) (d : Dest) (a : Access), s.operandOk f d a →
    let x := s.operandValue f a
    let res := fun r : Byte => Host.Outcome.next
      (s.fileResult f d a r (fun fl => { fl with z := decide (r = 0#8), n := r.getLsbD 7 }))
    let word := fun op : Nat => [BitVec.ofNat 16 (op * 2 ^ 10 + (if d = .file then 2 ^ 9 else 0)
      + (if a = .banked then 2 ^ 8 else 0) + f.toNat)]
    exec (.andwf f d a) s = res (s.w &&& x)
      ∧ exec (.comf f d a) s = res (~~~x)
      ∧ exec (.iorwf f d a) s = res (s.w ||| x)
      ∧ exec (.movf f d a) s = res x
      ∧ exec (.xorwf f d a) s = res (s.w ^^^ x)
      ∧ encode (.andwf f d a) = word 0b000101 ∧ encode (.comf f d a) = word 0b000111
      ∧ encode (.iorwf f d a) = word 0b000100 ∧ encode (.movf f d a) = word 0b010100
      ∧ encode (.xorwf f d a) = word 0b000110

/-- R133 to R136, R141: where each bit goes in the rotates and SWAPF, the flags, and the encodings. With d = 1 onto
STATUS the flags a rotate affects win over the stored result, the others are the stored result's (R68 (e)). Rests
on the spec's own D34. -/
def Obligations.RotateFileResults : Prop :=
  ∀ (s : State) (f : Byte) (d : Dest) (a : Access), s.operandOk f d a →
    let x := s.operandValue f a
    let word := fun op : Nat => [BitVec.ofNat 16 (op * 2 ^ 10 + (if d = .file then 2 ^ 9 else 0)
      + (if a = .banked then 2 ^ 8 else 0) + f.toNat)]
    let zn := fun (r : Byte) (fl : Flags) => { fl with z := decide (r = 0#8), n := r.getLsbD 7 }
    (∃ r : Byte, exec (.rlcf f d a) s
        = .next (s.fileResult f d a r (fun fl => { zn r fl with c := x.getLsbD 7 }))
        ∧ r.getLsbD 0 = s.flags.c ∧ ∀ n < 7, r.getLsbD (n + 1) = x.getLsbD n)
      ∧ (∃ r : Byte, exec (.rlncf f d a) s = .next (s.fileResult f d a r (zn r))
        ∧ r.getLsbD 0 = x.getLsbD 7 ∧ ∀ n < 7, r.getLsbD (n + 1) = x.getLsbD n)
      ∧ (∃ r : Byte, exec (.rrcf f d a) s
        = .next (s.fileResult f d a r (fun fl => { zn r fl with c := x.getLsbD 0 }))
        ∧ r.getLsbD 7 = s.flags.c ∧ ∀ n < 7, r.getLsbD n = x.getLsbD (n + 1))
      ∧ (∃ r : Byte, exec (.rrncf f d a) s = .next (s.fileResult f d a r (zn r))
        ∧ r.getLsbD 7 = x.getLsbD 0 ∧ ∀ n < 7, r.getLsbD n = x.getLsbD (n + 1))
      ∧ (∃ r : Byte, exec (.swapf f d a) s = .next (s.fileResult f d a r (fun fl => fl))
        ∧ ∀ n < 4, r.getLsbD n = x.getLsbD (n + 4) ∧ r.getLsbD (n + 4) = x.getLsbD n)
      ∧ encode (.rlcf f d a) = word 0b001101 ∧ encode (.rlncf f d a) = word 0b010001
      ∧ encode (.rrcf f d a) = word 0b001100 ∧ encode (.rrncf f d a) = word 0b010000
      ∧ encode (.swapf f d a) = word 0b001110

/-- R123, R130, R137: CLRF, MOVWF and SETF write their operand without reading it. Rests on the spec's own
D34, D35. -/
def Obligations.StoreResults : Prop :=
  ∀ (s : State) (f : Byte) (a : Access), (s.operand f a).1.writable = true →
    let put := fun v : Byte => ((s.operand f a).2.advance 2#21).afterWrite v (s.operand f a).1
    exec (.clrf f a) s = .next { put 0x00#8 with flags := { (put 0x00#8).flags with z := true } }
      ∧ exec (.movwf f a) s = .next (put s.w)
      ∧ exec (.setf f a) s = .next (put 0xFF#8)

/-- R131, R132: MULWF writes the unsigned product to PRODH:PRODL and no flag; NEGF writes the two's complement
with the flags of Add8(not f, 01h, 0), which are those of Sub8(00h, f, 0); and their encodings. NEGF onto STATUS
leaves the flags, which win over the stored result (R68 (e)). Rests on the spec's own D34. -/
def Obligations.MultiplyAndNegate : Prop :=
  ∀ (s : State) (f : Byte) (a : Access), s.operandOk f .wreg a →
    let x := s.operandValue f a
    let word := fun op : Nat => [BitVec.ofNat 16 (op * 2 ^ 9 + (if a = .banked then 2 ^ 8 else 0) + f.toNat)]
    (∃ h l : Byte, h.toNat * 256 + l.toNat = s.w.toNat * x.toNat
        ∧ exec (.mulwf f a) s
          = .next ({ s.afterOperandRead f a with prodh := h, prodl := l }.advance 2#21))
      ∧ (s.operandOk f .file a → exec (.negf f a) s
          = .next (s.fileResult f .file a (add8 (~~~x) 1#8 false).1 (fun _ => (add8 (~~~x) 1#8 false).2)))
      ∧ add8 (~~~x) 1#8 false = sub8 0x00#8 x false
      ∧ encode (.mulwf f a) = word 0b0000001 ∧ encode (.negf f a) = word 0b0110110

/-- R129: MOVFF reads its source completely, then writes its destination, each resolved once. A destination
reached through an FSR that points at PCL is not forbidden, and its write decides the next PC instead of pc + 4
(the model's reading, notes/assumptions/15.md). -/
def Obligations.MovffMoves : Prop :=
  ∀ (s : State) (fs fd : DataAddr), forbiddenDestination s.cfg fd = false →
    let q := s.resolve fs
    let u := (q.2.afterRead q.1).advance 4#21
    let p := u.resolve fd
    q.1.readable = true → p.1.writable = true →
    exec (.movff fs fd) s = .next (p.2.afterWrite (q.2.valueAt q.1) p.1)

/-- R284: MOVFF, MOVSF and MOVSS fault on PCL, TOSU, TOSH and TOSL as destination, before any access; no other
destination is forbidden. Rests on the spec's own D17. -/
def Obligations.ForbiddenDestinationsFault : Prop :=
  ∀ (s : State) (fs fd : DataAddr) (zs zd : BitVec 7) (x : BitVec 5),
    (forbiddenDestination s.cfg fd = true ↔
        ∃ r, sfrAt s.cfg fd = some r ∧ (r = .pcl ∨ r = .tosu ∨ r = .tosh ∨ r = .tosl))
      ∧ ∀ (r : Sfr), sfrAt s.cfg fd = some r → (r = .pcl ∨ r = .tosu ∨ r = .tosh ∨ r = .tosl) →
        exec (.movff fs fd) s = .fault (.forbiddenDestination fd)
          ∧ exec (.movsf zs fd) s = .fault (.forbiddenDestination fd)
          ∧ (s.fsr2 + zd.setWidth 12 = fd → exec (.movss zs zd x) s = .fault (.forbiddenDestination fd))

/-! ## Skips and bits -/

/-- R150, R151, R152, R157, R162, R163: the compares and tests, unsigned; nothing is written. A skip that is taken
whose next word is out of range faults (R72). Rests on the spec's own D3. -/
def Obligations.CompareSkips : Prop :=
  ∀ (s : State) (f : Byte) (b : BitVec 3) (a : Access), (s.operand f a).1.readable = true →
    let x := s.operandValue f a
    let t := s.afterOperandRead f a
    skipsFrom s t (decide (x = s.w)) (exec (.cpfseq f a) s)
      ∧ skipsFrom s t (decide (s.w.toNat < x.toNat)) (exec (.cpfsgt f a) s)
      ∧ skipsFrom s t (decide (x.toNat < s.w.toNat)) (exec (.cpfslt f a) s)
      ∧ skipsFrom s t (decide (x = 0#8)) (exec (.tstfsz f a) s)
      ∧ skipsFrom s t (!x.getLsbD b.toNat) (exec (.btfsc f b a) s)
      ∧ skipsFrom s t (x.getLsbD b.toNat) (exec (.btfss f b a) s)

/-- R153 to R156, R68 (d), R149: the counting skips: the changed byte goes to the destination, no flag is
written, the skip looks at the changed byte. A skip that is taken whose next word is out of range faults (R72). With
PCL as the destination they fault (R68 (d)), also where it is reached through an indirect addressing register (the
model's reading, notes/assumptions/15.md). Rests on the spec's own D3, D28. -/
def Obligations.CountSkips : Prop :=
  ∀ (s : State) (f : Byte) (d : Dest) (a : Access), s.operandOk f d a →
    let x := s.operandValue f a
    let t := fun r : Byte => (s.afterOperandRead f a).afterDest d (s.operand f a).1 r
    (¬ (d = .file ∧ (s.operand f a).1 = .sfr .pcl) →
      skipsFrom s (t (x - 1#8)) (decide (x = 1#8)) (exec (.decfsz f d a) s)
        ∧ skipsFrom s (t (x - 1#8)) (!decide (x = 1#8)) (exec (.dcfsnz f d a) s)
        ∧ skipsFrom s (t (x + 1#8)) (decide (x = 0xFF#8)) (exec (.incfsz f d a) s)
        ∧ skipsFrom s (t (x + 1#8)) (!decide (x = 0xFF#8)) (exec (.infsnz f d a) s))
      ∧ (d = .file → (s.operand f a).1 = .sfr .pcl →
        exec (.decfsz f d a) s = .fault .unpredictable ∧ exec (.dcfsnz f d a) s = .fault .unpredictable
          ∧ exec (.incfsz f d a) s = .fault .unpredictable ∧ exec (.infsnz f d a) s = .fault .unpredictable)

/-- R159, R160, R161, R164: bit b is cleared, set or toggled, the other seven bits are written back as read,
no flag changes; and their encodings. -/
def Obligations.BitResults : Prop :=
  ∀ (s : State) (f : Byte) (b : BitVec 3) (a : Access), s.operandOk f .file a →
    let x := s.operandValue f a
    let put := fun v : Byte => ((s.afterOperandRead f a).advance 2#21).afterWrite v (s.operand f a).1
    let word := fun op : Nat => [BitVec.ofNat 16 (op * 2 ^ 12 + b.toNat * 2 ^ 9
      + (if a = .banked then 2 ^ 8 else 0) + f.toNat)]
    (∃ v : Byte, exec (.bcf f b a) s = .next (put v)
        ∧ v.getLsbD b.toNat = false ∧ ∀ n, n ≠ b.toNat → v.getLsbD n = x.getLsbD n)
      ∧ (∃ v : Byte, exec (.bsf f b a) s = .next (put v)
        ∧ v.getLsbD b.toNat = true ∧ ∀ n, n ≠ b.toNat → v.getLsbD n = x.getLsbD n)
      ∧ (∃ v : Byte, exec (.btg f b a) s = .next (put v)
        ∧ v.getLsbD b.toNat = !x.getLsbD b.toNat ∧ ∀ n, n ≠ b.toNat → v.getLsbD n = x.getLsbD n)
      ∧ encode (.bcf f b a) = word 0b1001 ∧ encode (.bsf f b a) = word 0b1000 ∧ encode (.btg f b a) = word 0b0111

/-! ## Control -/

/-- R170 to R176, R178: the conditional branches go to pc + 2 + 2n or pc + 2, and change nothing else. -/
def Obligations.ConditionalBranches : Prop :=
  ∀ (s : State) (n : Byte), s.pc.getLsbD 0 = false →
    let go := fun c : Bool => Host.Outcome.next { s with
      pc := if c = true then s.pc + 2#21 + BitVec.ofInt 21 (2 * n.toInt) else s.pc + 2#21 }
    exec (.bc n) s = go s.flags.c ∧ exec (.bnc n) s = go (!s.flags.c)
      ∧ exec (.bn n) s = go s.flags.n ∧ exec (.bnn n) s = go (!s.flags.n)
      ∧ exec (.bov n) s = go s.flags.ov ∧ exec (.bnov n) s = go (!s.flags.ov)
      ∧ exec (.bz n) s = go s.flags.z ∧ exec (.bnz n) s = go (!s.flags.z)

/-- R177, R182, R184: BRA, GOTO and both NOPs change the PC and nothing else. -/
def Obligations.JumpsAndNops : Prop :=
  ∀ (s : State) (n : BitVec 11) (k : BitVec 20) (x : BitVec 12), s.pc.getLsbD 0 = false →
    exec (.bra n) s = .next { s with pc := s.pc + 2#21 + BitVec.ofInt 21 (2 * n.toInt) }
      ∧ exec (.goto k) s = .next { s with pc := k ++ 0#1 }
      ∧ exec .nop s = .next { s with pc := s.pc + 2#21 }
      ∧ exec (.nopF x) s = .next { s with pc := s.pc + 2#21 }

/-- R179, R183, R186, R232: the calls and PUSH push their return address; CALL with s = 1 saves W, Status and
BSR; nothing else changes but the PC. Rests on the spec's own D2, D8. -/
def Obligations.CallsPush : Prop :=
  ∀ (s : State) (k : BitVec 20) (n : BitVec 11), s.pc.getLsbD 0 = false →
    s.stack.length < s.cfg.stackDepth →
    exec (.call k false) s = .next { s with stack := (s.pc + 4#21) :: s.stack, pc := k ++ 0#1 }
      ∧ exec (.call k true) s = .next { s with
          stack := (s.pc + 4#21) :: s.stack, pc := k ++ 0#1
          ws := s.w, statuss := s.flags.toByte s.cfg.statusLayout, bsrs := s.bsr.setWidth 8 }
      ∧ exec (.rcall n) s = .next { s with
          stack := (s.pc + 2#21) :: s.stack, pc := s.pc + 2#21 + BitVec.ofInt 21 (2 * n.toInt) }
      ∧ exec .callw s = .next { s with
          stack := (s.pc + 2#21) :: s.stack, pc := s.pclatu ++ s.pclath ++ (s.w &&& 0xFE#8) }
      ∧ exec .push s = .next { s with stack := (s.pc + 2#21) :: s.stack, pc := s.pc + 2#21 }

/-- R185, R189, R190, R231, R237: the returns pop their address, RETURN with s = 1 restores W, Status and BSR,
POP discards. Bit 0 of an address popped into the PC is dropped, for PC[0] = 0 always (R27; the model's
reading for an odd TOS, notes/assumptions/7.md). Rests on the spec's own D2, D8. -/
def Obligations.ReturnsPop : Prop :=
  ∀ (s : State) (v : ProgAddr) (rest : List ProgAddr) (k : Byte) (k6 : BitVec 6),
    s.pc.getLsbD 0 = false → s.stack = v :: rest →
    let back : ProgAddr := v.extractLsb' 1 20 ++ 0#1
    exec (.ret false) s = .next { s with stack := rest, pc := back }
      ∧ exec (.ret true) s = .next { s with
          stack := rest, pc := back
          w := s.ws, flags := Flags.ofByte s.cfg.statusLayout s.statuss, bsr := s.bsrs.extractLsb' 0 4 }
      ∧ exec (.retlw k) s = .next { s with stack := rest, pc := back, w := k }
      ∧ exec .pop s = .next { s with stack := rest, pc := s.pc + 2#21 }
      ∧ exec (.addulnk k6) s = .next { s with stack := rest, pc := back, fsr2 := s.fsr2 + k6.setWidth 12 }
      ∧ exec (.subulnk k6) s = .next { s with stack := rest, pc := back, fsr2 := s.fsr2 - k6.setWidth 12 }

/-- R188, R259: RETFIE pops the PC, sets GIEL if IPEN and GIEH are set and GIEH otherwise, and with s = 1
restores W, Status and BSR. Bit 0 of the address popped into the PC is dropped (R27; the model's reading for an
odd TOS, notes/assumptions/7.md). Rests on the spec's own D2, D11. -/
def Obligations.RetfieReturnsAndEnables : Prop :=
  ∀ (s : State) (v : ProgAddr) (rest : List ProgAddr), s.stack = v :: rest →
    let enabled := if s.rcon.getLsbD 7 = true ∧ s.intcon.getLsbD 7 = true then s.intcon ||| 0x40#8
      else s.intcon ||| 0x80#8
    let back : ProgAddr := v.extractLsb' 1 20 ++ 0#1
    exec (.retfie false) s = .next { s with stack := rest, pc := back, intcon := enabled }
      ∧ exec (.retfie true) s = .next { s with
          stack := rest, pc := back, intcon := enabled
          w := s.ws, flags := Flags.ofByte s.cfg.statusLayout s.statuss, bsr := s.bsrs.extractLsb' 0 4 }

/-- R33, R34: a push on a full stack and a pop of an empty one fault, in every instruction that does them.
Rests on the spec's own D8. -/
def Obligations.StackLimitsFault : Prop :=
  ∀ (s : State) (k : BitVec 20) (n : BitVec 11) (k8 : Byte) (k6 : BitVec 6) (fast : Bool),
    (s.stack.length = s.cfg.stackDepth →
        exec (.call k fast) s = .fault (.stackOverflow s.pc) ∧ exec (.rcall n) s = .fault (.stackOverflow s.pc)
          ∧ exec .callw s = .fault (.stackOverflow s.pc) ∧ exec .push s = .fault (.stackOverflow s.pc))
      ∧ (s.stack = [] →
        exec (.ret fast) s = .fault (.stackUnderflow s.pc) ∧ exec (.retfie fast) s = .fault (.stackUnderflow s.pc)
          ∧ exec (.retlw k8) s = .fault (.stackUnderflow s.pc) ∧ exec .pop s = .fault (.stackUnderflow s.pc)
          ∧ exec (.addulnk k6) s = .fault (.stackUnderflow s.pc)
          ∧ exec (.subulnk k6) s = .fault (.stackUnderflow s.pc))

/-- R35, R179, R190: after CALL with s = 1, and any code that leaves the stack and the shadow registers as the
call left them, RETURN with s = 1 brings back W, Status, BSR, the stack and the address after the call. The
premise on the parameters is that each flag has a bit of its own in the Status byte (R23). -/
def Obligations.FastCallReturnRestores : Prop :=
  ∀ (s t t' : State) (k : BitVec 20), s.pc.getLsbD 0 = false → Config.layoutWf s.cfg.statusLayout = true →
    exec (.call k true) s = .next t →
    t'.stack = t.stack → t'.ws = t.ws → t'.statuss = t.statuss → t'.bsrs = t.bsrs → t'.cfg = t.cfg →
    ∃ u, exec (.ret true) t' = .next u ∧ u.w = s.w ∧ u.flags = s.flags ∧ u.bsr = s.bsr
      ∧ u.stack = s.stack ∧ u.pc = s.pc + 4#21

/-- R180, R191: CLRWDT and SLEEP clear the watchdog counters and write TO and PD; SLEEP puts the processor to
sleep with the PC past it. Rests on the spec's own D7, D22, D23. -/
def Obligations.WatchdogAndSleep : Prop :=
  ∀ (s : State), s.pc.getLsbD 0 = false →
    exec .clrwdt s = .next { s with wdt := 0, wdtPost := 0, rcon := s.rcon ||| 0x0C#8, pc := s.pc + 2#21 }
      ∧ exec .sleep s = .next { s with
          wdt := 0, wdtPost := 0, rcon := (s.rcon ||| 0x08#8) &&& 0xFB#8, asleep := true, pc := s.pc + 2#21 }

/-- R48 (MCLR class), R187, R282: what RESET loads and what it keeps: every register by its entry of
`ResetValues`, TO and PD by theirs; and, with the suggested table of R48, the values. STKFUL, STKUNF and the bits
of INTCON and RCON that R48 does not list are kept (of those bits this is the model's choice,
notes/assumptions/4.md). Bit 0 of the PC is dropped (notes/assumptions/7.md). Rests on the spec's own D9, D19. -/
def Obligations.ResetInstruction : Prop :=
  ∀ (s : State), ∃ t, exec .reset s = .next t
    ∧ resetLoads s.cfg.resetValues.mclr s t ∧ keptByMclrClass s t
    ∧ s.cfg.resetValues.mclr.timeOut.Loads (s.rcon.extractLsb' 3 1) (t.rcon.extractLsb' 3 1)
    ∧ s.cfg.resetValues.mclr.powerDown.Loads (s.rcon.extractLsb' 2 1) (t.rcon.extractLsb' 2 1)
    ∧ t.env = s.env
    ∧ (s.cfg.resetValues = ResetValues.suggested → loadedByTable t ∧ keptByMclr s t
      ∧ t.rcon.getLsbD 3 = s.rcon.getLsbD 3 ∧ t.rcon.getLsbD 2 = s.rcon.getLsbD 2)

/-! ## Literals -/

/-- R200, R201, R202, R207, R208: the literal arithmetic and logic change W, their flags and the PC; and their
encodings. -/
def Obligations.LiteralArithmetic : Prop :=
  ∀ (s : State) (k : Byte), s.pc.getLsbD 0 = false →
    let all := fun r : Byte × Flags => Host.Outcome.next { s with w := r.1, flags := r.2, pc := s.pc + 2#21 }
    let zn := fun r : Byte => Host.Outcome.next { s with
      w := r, flags := { s.flags with z := decide (r = 0#8), n := r.getLsbD 7 }, pc := s.pc + 2#21 }
    let word := fun op : Nat => [BitVec.ofNat 16 (op * 2 ^ 8 + k.toNat)]
    exec (.addlw k) s = all (add8 s.w k false) ∧ exec (.sublw k) s = all (sub8 k s.w false)
      ∧ exec (.andlw k) s = zn (s.w &&& k) ∧ exec (.iorlw k) s = zn (s.w ||| k)
      ∧ exec (.xorlw k) s = zn (s.w ^^^ k)
      ∧ encode (.addlw k) = word 0b00001111 ∧ encode (.sublw k) = word 0b00001000
      ∧ encode (.andlw k) = word 0b00001011 ∧ encode (.iorlw k) = word 0b00001001
      ∧ encode (.xorlw k) = word 0b00001010

/-- R203 to R206: MOVLW, MOVLB, LFSR and MULLW write their register and the PC and no flag; MOVLB keeps only
k[3:0]. -/
def Obligations.LiteralLoads : Prop :=
  ∀ (s : State) (k : Byte) (k12 : BitVec 12), s.pc.getLsbD 0 = false →
    exec (.movlw k) s = .next { s with w := k, pc := s.pc + 2#21 }
      ∧ exec (.movlb k) s = .next { s with bsr := BitVec.ofNat 4 (k.toNat % 16), pc := s.pc + 2#21 }
      ∧ exec (.lfsr .fsr0 k12) s = .next { s with fsr0 := k12, pc := s.pc + 4#21 }
      ∧ exec (.lfsr .fsr1 k12) s = .next { s with fsr1 := k12, pc := s.pc + 4#21 }
      ∧ exec (.lfsr .fsr2 k12) s = .next { s with fsr2 := k12, pc := s.pc + 4#21 }
      ∧ ∃ h l : Byte, h.toNat * 256 + l.toNat = s.w.toNat * k.toNat
        ∧ exec (.mullw k) s = .next { s with prodh := h, prodl := l, pc := s.pc + 2#21 }

/-! ## Tables -/

/-- R215 to R218, R72: the table reads, TBLPTR modulo 2^21; above PROG_BYTES they fault. Rests on the spec's
own D3, D25. -/
def Obligations.TableReads : Prop :=
  ∀ (s : State), s.pc.getLsbD 0 = false →
    let reads := fun (r : Result) (at_ after : ProgAddr) =>
      (at_.toNat < s.cfg.progBytes →
          r = .next { s with tablat := s.progByte at_, tblptr := after, pc := s.pc + 2#21 })
        ∧ (s.cfg.progBytes ≤ at_.toNat → r = .fault (.tableReadOutOfRange at_))
    reads (exec .tblrd s) s.tblptr s.tblptr
      ∧ reads (exec .tblrdPostInc s) s.tblptr (s.tblptr + 1#21)
      ∧ reads (exec .tblrdPostDec s) s.tblptr (s.tblptr - 1#21)
      ∧ reads (exec .tblrdPreInc s) (s.tblptr + 1#21) (s.tblptr + 1#21)

/-- R219 to R222, R42: the table writes: holding register TBLPTR[2:0] takes TABLAT, the others keep their bytes,
and nothing else changes but TBLPTR and the PC. Rests on the spec's own D25, D26. -/
def Obligations.TableWrites : Prop :=
  ∀ (s : State), s.pc.getLsbD 0 = false →
    let wrote := fun (r : Result) (at_ after : ProgAddr) => ∃ h : List Byte,
      r = .next { s with holding := h, tblptr := after, pc := s.pc + 2#21 }
        ∧ h.length = s.holding.length
        ∧ ∀ n, n < s.holding.length →
          h.getD n 0x00#8 = if n = at_.toNat % 8 then s.tablat else s.holding.getD n 0x00#8
    wrote (exec .tblwt s) s.tblptr s.tblptr
      ∧ wrote (exec .tblwtPostInc s) s.tblptr (s.tblptr + 1#21)
      ∧ wrote (exec .tblwtPostDec s) s.tblptr (s.tblptr - 1#21)
      ∧ wrote (exec .tblwtPreInc s) (s.tblptr + 1#21) (s.tblptr + 1#21)

/-! ## Extended set -/

/-- R230, R236: ADDFSR and SUBFSR, modulo 4096. Rests on the spec's own D4. -/
def Obligations.FsrArithmetic : Prop :=
  ∀ (s : State) (k : BitVec 6), s.pc.getLsbD 0 = false →
    exec (.addfsr .fsr0 k) s = .next { s with fsr0 := s.fsr0 + k.setWidth 12, pc := s.pc + 2#21 }
      ∧ exec (.addfsr .fsr1 k) s = .next { s with fsr1 := s.fsr1 + k.setWidth 12, pc := s.pc + 2#21 }
      ∧ exec (.addfsr .fsr2 k) s = .next { s with fsr2 := s.fsr2 + k.setWidth 12, pc := s.pc + 2#21 }
      ∧ exec (.subfsr .fsr0 k) s = .next { s with fsr0 := s.fsr0 - k.setWidth 12, pc := s.pc + 2#21 }
      ∧ exec (.subfsr .fsr1 k) s = .next { s with fsr1 := s.fsr1 - k.setWidth 12, pc := s.pc + 2#21 }
      ∧ exec (.subfsr .fsr2 k) s = .next { s with fsr2 := s.fsr2 - k.setWidth 12, pc := s.pc + 2#21 }

/-- R233, R234, R235: MOVSF, MOVSS and PUSHL. An indirect addressing register as source of MOVSF or MOVSS reads
00h without `Resolve`, as destination of MOVSS it makes a NOP; PUSHL decrements FSR2 after the write. A MOVSF or
PUSHL destination goes through `Resolve` (for PUSHL the model's reading, notes/assumptions/16.md); reached through
an FSR that points at PCL it is not forbidden, and its write decides the next PC (the model's reading,
notes/assumptions/15.md). Rests on the spec's own D29. -/
def Obligations.IndexedMoves : Prop :=
  ∀ (s : State) (zs zd : BitVec 7) (fd : DataAddr) (x : BitVec 5) (k : Byte),
    let src := placeAt s.cfg (s.fsr2 + zs.setWidth 12)
    let dst := s.fsr2 + zd.setWidth 12
    let u := (s.afterRead src).advance 4#21
    (indirectAt s.cfg (s.fsr2 + zs.setWidth 12) ≠ none →
        src.readable = true ∧ s.valueAt src = 0x00#8 ∧ s.afterRead src = s)
      ∧ (forbiddenDestination s.cfg fd = false → src.readable = true → (u.resolve fd).1.writable = true →
        exec (.movsf zs fd) s = .next ((u.resolve fd).2.afterWrite (s.valueAt src) (u.resolve fd).1))
      ∧ (indirectAt s.cfg dst ≠ none → exec (.movss zs zd x) s = .next (s.advance 4#21))
      ∧ (forbiddenDestination s.cfg dst = false → indirectAt s.cfg dst = none → src.readable = true →
          (placeAt s.cfg dst).writable = true →
          exec (.movss zs zd x) s = .next (u.afterWrite (s.valueAt src) (placeAt s.cfg dst)))
      ∧ (((s.advance 2#21).resolve s.fsr2).1.writable = true →
          let t := ((s.advance 2#21).resolve s.fsr2).2.afterWrite k ((s.advance 2#21).resolve s.fsr2).1
          exec (.pushl k) s = .next { t with fsr2 := t.fsr2 - 1#12 })

/-! ## Who writes what, over all instructions -/

/-- R21, R64, R74: every instruction leaves every byte of RAM as it was, but the one it stores to; one that stores
to a peripheral address adds exactly one output event, for that address, and one that does not adds none (the form
of the event is the model's, notes/assumptions/9.md). Rests on the spec's own D20, D27. -/
def Obligations.MemoryFrame : Prop :=
  ∀ (i : Instr) (s t : State), exec i s = .next t →
    (∀ addr, storePlace i s ≠ some (.ram addr) → t.ramByte addr = s.ramByte addr)
      ∧ ((∀ addr, storePlace i s ≠ some (.peripheral addr)) → t.outputs = s.outputs)
      ∧ (∀ addr, storePlace i s = some (.peripheral addr) → ∃ v, t.outputs = (addr.toNat, v) :: s.outputs)

/-- R24: a flag changes only under an instruction that affects it, or one that stores to STATUS. -/
def Obligations.FlagFrame : Prop :=
  ∀ (i : Instr) (s t : State), exec i s = .next t → storePlace i s ≠ some (.sfr .status) →
    ((flagsAffected i).n = false → t.flags.n = s.flags.n)
      ∧ ((flagsAffected i).ov = false → t.flags.ov = s.flags.ov)
      ∧ ((flagsAffected i).z = false → t.flags.z = s.flags.z)
      ∧ ((flagsAffected i).dc = false → t.flags.dc = s.flags.dc)
      ∧ ((flagsAffected i).c = false → t.flags.c = s.flags.c)

/-- R22, R37: BSR is written only by MOVLB, RETURN and RETFIE with s = 1, RESET, and stores to it; PRODH and
PRODL only by MULWF, MULLW and stores to them, and by RESET where `ResetValues` does not keep them. -/
def Obligations.BankAndProductWriters : Prop :=
  ∀ (i : Instr) (s t : State), exec i s = .next t →
    (t.bsr ≠ s.bsr → (∃ k, i = .movlb k) ∨ i = .ret true ∨ i = .retfie true ∨ i = .reset
        ∨ storePlace i s = some (.sfr .bsr))
      ∧ (t.prodh ≠ s.prodh → (∃ f a, i = .mulwf f a) ∨ (∃ k, i = .mullw k)
        ∨ storePlace i s = some (.sfr .prodh) ∨ (i = .reset ∧ s.cfg.resetValues.mclr.prod ≠ .unchanged))
      ∧ (t.prodl ≠ s.prodl → (∃ f a, i = .mulwf f a) ∨ (∃ k, i = .mullw k)
        ∨ storePlace i s = some (.sfr .prodl) ∨ (i = .reset ∧ s.cfg.resetValues.mclr.prod ≠ .unchanged))

/-- R31, R35: the return stack is changed only by the calls, PUSH, the returns, POP, RESET and stores to the
TOS bytes; the shadow registers only by CALL with s = 1 and RESET. -/
def Obligations.StackAndShadowWriters : Prop :=
  ∀ (i : Instr) (s t : State), exec i s = .next t →
    (t.stack ≠ s.stack → (∃ k b, i = .call k b) ∨ (∃ n, i = .rcall n) ∨ i = .callw ∨ i = .push
        ∨ (∃ b, i = .ret b) ∨ (∃ b, i = .retfie b) ∨ (∃ k, i = .retlw k) ∨ i = .pop
        ∨ (∃ k, i = .addulnk k) ∨ (∃ k, i = .subulnk k) ∨ i = .reset
        ∨ storePlace i s = some (.sfr .tosu) ∨ storePlace i s = some (.sfr .tosh)
        ∨ storePlace i s = some (.sfr .tosl))
      ∧ ((t.ws ≠ s.ws ∨ t.statuss ≠ s.statuss ∨ t.bsrs ≠ s.bsrs) → (∃ k, i = .call k true) ∨ i = .reset)

/-- R41, R42: TABLAT is written only by the table reads, RESET and stores to it; TBLPTR only by the table
instructions that move it, RESET and stores to its bytes; the holding registers only by the table writes and
RESET. -/
def Obligations.TableRegisterWriters : Prop :=
  ∀ (i : Instr) (s t : State), exec i s = .next t →
    (t.tablat ≠ s.tablat → i = .tblrd ∨ i = .tblrdPostInc ∨ i = .tblrdPostDec ∨ i = .tblrdPreInc ∨ i = .reset
        ∨ storePlace i s = some (.sfr .tablat))
      ∧ (t.tblptr ≠ s.tblptr → i = .tblrdPostInc ∨ i = .tblrdPostDec ∨ i = .tblrdPreInc
        ∨ i = .tblwtPostInc ∨ i = .tblwtPostDec ∨ i = .tblwtPreInc ∨ i = .reset
        ∨ storePlace i s = some (.sfr .tblptru) ∨ storePlace i s = some (.sfr .tblptrh)
        ∨ storePlace i s = some (.sfr .tblptrl))
      ∧ (t.holding ≠ s.holding → i = .tblwt ∨ i = .tblwtPostInc ∨ i = .tblwtPostDec ∨ i = .tblwtPreInc
        ∨ i = .reset)

/-- R25, R26, R43: INTCON is changed only by RETFIE, RESET and stores to it; RCON only by CLRWDT, SLEEP, RESET
and stores to it; the watchdog counters only by CLRWDT, SLEEP and RESET; only SLEEP puts the processor to
sleep and no instruction wakes it but RESET. The model's own choices: no instruction changes STKFUL or STKUNF
(notes/assumptions/13.md), the offers of the environment (11.md) or the epoch of RAM (10.md).
Rests on the spec's own D7, D22, D23. -/
def Obligations.ControlRegisterWriters : Prop :=
  ∀ (i : Instr) (s t : State), exec i s = .next t →
    (t.intcon ≠ s.intcon → (∃ b, i = .retfie b) ∨ i = .reset ∨ storePlace i s = some (.sfr .intcon))
      ∧ (t.rcon ≠ s.rcon → i = .clrwdt ∨ i = .sleep ∨ i = .reset ∨ storePlace i s = some (.sfr .rcon))
      ∧ ((t.wdt ≠ s.wdt ∨ t.wdtPost ≠ s.wdtPost) → i = .clrwdt ∨ i = .sleep ∨ i = .reset)
      ∧ (s.asleep = false → t.asleep = true → i = .sleep) ∧ (s.asleep = true → t.asleep = false → i = .reset)
      ∧ t.env = s.env ∧ t.ramEpoch = s.ramEpoch ∧ t.stkful = s.stkful ∧ t.stkunf = s.stkunf

/-! ## Interrupts, Watchdog, Sleep, reset events -/

/-- R256, R261, R266: when an asserted interrupt can be taken, and which event is acted upon at a boundary.
With nothing acted upon, a sleeping machine answers the same state: the model's choice, for D32 calls that state final
(notes/assumptions/12.md). The form of the offers is the model's too (notes/assumptions/11.md). Rests on the spec's own
D10, D21, D22, D32. -/
def Obligations.BoundaryOrder : Prop :=
  ∀ (s : State),
    (s.rcon.getLsbD 7 = false → ∀ level,
        (s.canTake level .core = true ↔ s.intcon.getLsbD 7 = true)
          ∧ (s.canTake level .peripheral = true ↔ s.intcon.getLsbD 7 = true ∧ s.intcon.getLsbD 6 = true))
      ∧ (s.rcon.getLsbD 7 = true → ∀ src,
        (s.canTake .high src = true ↔ s.intcon.getLsbD 7 = true)
          ∧ (s.canTake .low src = true ↔ s.intcon.getLsbD 7 = true ∧ s.intcon.getLsbD 6 = true))
      ∧ (∀ kind, s.env.resetEvent = some kind → s.boundary = some (.reset kind))
      ∧ (s.env.resetEvent = none → s.env.wdtTimeout = true → s.boundary = some .wdtTimeout)
      ∧ (s.env.resetEvent = none → s.env.wdtTimeout = false →
          (∀ src, s.env.irqHigh = some src → s.canTake .high src = true → s.boundary = some (.irq .high))
          ∧ (∀ src, s.env.irqLow = some src → s.canTake .low src = true →
              (∀ src', s.env.irqHigh = some src' → s.canTake .high src' = false) →
              s.boundary = some (.irq .low))
          ∧ ((∀ src, s.env.irqHigh = some src → s.canTake .high src = false) →
              (∀ src, s.env.irqLow = some src → s.canTake .low src = false) →
              s.boundary = if s.asleep = true ∧ (s.env.irqHigh ≠ none ∨ s.env.irqLow ≠ none)
                then some .wake else none))
      ∧ (s.boundary = none → s.asleep = true → step s = .next s)

/-- R257: taking an interrupt pushes the PC, saves W, Status and BSR, clears the matching enable, goes to the
vector and wakes the processor; the offer is withdrawn; on a full stack it faults. Rests on the spec's own
D10 (and notes/assumptions/11.md). -/
def Obligations.InterruptEntry : Prop :=
  ∀ (s : State) (level : IrqLevel), s.boundary = some (.irq level) → s.cfg.wf = true →
    let hi : Bool := level == .high || !s.rcon.getLsbD 7
    (s.stack.length < s.cfg.stackDepth → step s = .next { s with
        stack := s.pc :: s.stack
        ws := s.w, statuss := s.flags.toByte s.cfg.statusLayout, bsrs := s.bsr.setWidth 8
        intcon := if hi = true then s.intcon &&& 0x7F#8 else s.intcon &&& 0xBF#8
        pc := if hi = true then s.cfg.highVector else s.cfg.lowVector
        asleep := false
        env := match level with
          | .high => { s.env with irqHigh := none }
          | .low => { s.env with irqLow := none } })
      ∧ (s.stack.length = s.cfg.stackDepth → step s = .fault (.stackOverflow s.pc))

/-- R188, R257, R259: an interrupt that is taken, a handler that leaves the stack, the shadow registers and the
enables as entry left them, and RETFIE with s = 1 bring back the PC, W, Status, BSR, the stack and INTCON. The
premise on the parameters is that each flag has a bit of its own in the Status byte (R23). Rests on the spec's
own D10, D11 (and notes/assumptions/11.md). -/
def Obligations.InterruptReturnRestores : Prop :=
  ∀ (s t t' : State) (level : IrqLevel), s.pc.getLsbD 0 = false →
    Config.layoutWf s.cfg.statusLayout = true → s.boundary = some (.irq level) → step s = .next t →
    t'.stack = t.stack → t'.ws = t.ws → t'.statuss = t.statuss → t'.bsrs = t.bsrs →
    t'.intcon = t.intcon → t'.rcon = t.rcon → t'.cfg = t.cfg →
    ∃ u, exec (.retfie true) t' = .next u ∧ u.pc = s.pc ∧ u.w = s.w ∧ u.flags = s.flags ∧ u.bsr = s.bsr
      ∧ u.stack = s.stack ∧ u.intcon = s.intcon

/-- R263, R266: a Watchdog time-out wakes a sleeping processor with TO = 0 and resumes at the PC; in a running one
it is a MCLR-class reset with TO = 0, every other register as the class's column of R48 says; an interrupt request
that cannot be taken only wakes. The model's own: the offer of the time-out is withdrawn, a reset withdraws all
(notes/assumptions/11.md), bit 0 of the PC is dropped (7.md), the bits of INTCON and RCON that R48 does not list
are kept (4.md). Rests on the spec's own D9, D22, D23. -/
def Obligations.WatchdogAndWake : Prop :=
  ∀ (s : State),
    (s.boundary = some .wdtTimeout → s.asleep = true → step s = .next { s with
        asleep := false, rcon := s.rcon &&& 0xF7#8, env := { s.env with wdtTimeout := false } })
      ∧ (s.boundary = some .wdtTimeout → s.asleep = false → ∃ t, step s = .next t
          ∧ resetLoads s.cfg.resetValues.mclr s t ∧ keptByMclrClass s t ∧ t.rcon.getLsbD 3 = false
          ∧ s.cfg.resetValues.mclr.powerDown.Loads (s.rcon.extractLsb' 2 1) (t.rcon.extractLsb' 2 1)
          ∧ t.env = Env.none
          ∧ (s.cfg.resetValues = ResetValues.suggested → loadedByTable t ∧ keptByMclr s t
            ∧ t.rcon.getLsbD 2 = s.rcon.getLsbD 2))
      ∧ (s.boundary = some .wake → step s = .next { s with asleep := false })

/-- R48, R282: a reset event loads every register by its column of `ResetValues`; and, with the suggested table of
R48, the values. A MCLR reset keeps STKFUL and STKUNF; in Sleep it has a TO and a PD of its own. The model's own:
the offers are withdrawn (notes/assumptions/11.md, 22.md), a power-on reset clears STKFUL and STKUNF (13.md), the
bits of INTCON and RCON that R48 does not list are kept by MCLR and the family's after power-on (4.md), bit 0 of
the PC is dropped (7.md). Rests on the spec's own D9, D19, D21. -/
def Obligations.ResetEvents : Prop :=
  ∀ (s : State) (kind : ResetKind), s.boundary = some (.reset kind) →
    let rv := s.cfg.resetValues
    let to_ := fun x : State => x.rcon.extractLsb' 3 1
    let pd := fun x : State => x.rcon.extractLsb' 2 1
    ∃ t, step s = .next t ∧ t.env = Env.none
      ∧ (kind = .powerOn → resetLoads rv.powerOn s t
          ∧ rv.powerOn.timeOut.Loads (to_ s) (to_ t) ∧ rv.powerOn.powerDown.Loads (pd s) (pd t)
          ∧ t.stkful = false ∧ t.stkunf = false
          ∧ (∀ n < 6, t.intcon.getLsbD n = State.reset.intcon.getLsbD n)
          ∧ (∀ n < 7, n ≠ 2 → n ≠ 3 → t.rcon.getLsbD n = State.reset.rcon.getLsbD n)
          ∧ (rv = ResetValues.suggested → loadedByTable t
            ∧ t.rcon.getLsbD 3 = true ∧ t.rcon.getLsbD 2 = true))
      ∧ (kind = .mclr → resetLoads rv.mclr s t ∧ keptByMclrClass s t
          ∧ (s.asleep = true → rv.asleepTimeOut.Loads (to_ s) (to_ t) ∧ rv.asleepPowerDown.Loads (pd s) (pd t))
          ∧ (s.asleep = false → rv.mclr.timeOut.Loads (to_ s) (to_ t) ∧ rv.mclr.powerDown.Loads (pd s) (pd t))
          ∧ (rv = ResetValues.suggested → loadedByTable t ∧ keptByMclr s t
            ∧ t.rcon.getLsbD 3 = (s.asleep || s.rcon.getLsbD 3)
            ∧ t.rcon.getLsbD 2 = (!s.asleep && s.rcon.getLsbD 2)))
end

