-- ==== Sys2Proof/Laws/Memory.lean ====
section
/-! SUPPORT. The laws of the byte memories: read after write, and the canonical form is kept. -/

namespace Sys2Proof.Machine

/-! ### Read after write -/

@[simp] theorem Memory.lookup_insert_same (m : Memory) (a : Nat) (v : Byte) :
    (m.insert a v).lookup a = some v := by
  induction m with
  | nil => simp [Memory.insert, Memory.lookup]
  | cons c m ih =>
    obtain ⟨b, u⟩ := c
    simp only [Memory.insert]
    split_ifs with h1 h2
    · simp [Memory.lookup]
    · simp [Memory.lookup]
    · simp [Memory.lookup, Ne.symm h2, ih]

theorem Memory.lookup_insert_other (m : Memory) (a b : Nat) (v : Byte) (h : b ≠ a) :
    (m.insert a v).lookup b = m.lookup b := by
  induction m with
  | nil => simp [Memory.insert, Memory.lookup, Ne.symm h]
  | cons c m ih =>
    obtain ⟨d, u⟩ := c
    simp only [Memory.insert]
    split_ifs with h1 h2
    · simp [Memory.lookup, Ne.symm h]
    · subst h2; simp [Memory.lookup, Ne.symm h]
    · simp [Memory.lookup, ih]

theorem Memory.lookup_erase_other (m : Memory) (a b : Nat) (h : b ≠ a) :
    (m.erase a).lookup b = m.lookup b := by
  induction m with
  | nil => rfl
  | cons c m ih =>
    obtain ⟨d, u⟩ := c
    simp only [Memory.erase]
    split_ifs with h1
    · subst h1; simp [Memory.lookup, Ne.symm h]
    · simp [Memory.lookup, ih]

theorem Memory.lookup_eq_none (m : Memory) (a : Nat) (h : ∀ c ∈ m, c.1 ≠ a) : m.lookup a = none := by
  induction m with
  | nil => rfl
  | cons c m ih =>
    obtain ⟨d, u⟩ := c
    have hd : d ≠ a := h (d, u) (by simp)
    simp [Memory.lookup, hd, ih fun c hc => h c (by simp [hc])]

theorem Memory.lookup_erase_same (blank : Option Byte) (m : Memory) (a : Nat) (h : m.wf blank) :
    (m.erase a).lookup a = none := by
  obtain ⟨hs, -⟩ := h
  induction m with
  | nil => rfl
  | cons c m ih =>
    obtain ⟨d, u⟩ := c
    rw [List.pairwise_cons] at hs
    simp only [Memory.erase]
    split_ifs with h1
    · subst h1
      exact Memory.lookup_eq_none m d fun c hc => Nat.ne_of_gt (hs.1 c hc)
    · simp [Memory.lookup, h1, ih hs.2]

theorem Memory.lookup_store_other (blank : Option Byte) (m : Memory) (a b : Nat) (v : Byte) (h : b ≠ a) :
    (m.store blank a v).lookup b = m.lookup b := by
  unfold Memory.store
  split_ifs
  · exact m.lookup_erase_other a b h
  · exact m.lookup_insert_other a b v h

@[simp] theorem Memory.lookup_store_none_same (m : Memory) (a : Nat) (v : Byte) :
    (m.store none a v).lookup a = some v := by
  simp [Memory.store]

/-- What a stored byte reads as where an unlisted address reads as `e`. -/
theorem Memory.getD_store_same (e : Byte) (m : Memory) (a : Nat) (v : Byte) (h : m.wf (some e)) :
    ((m.store (some e) a v).lookup a).getD e = v := by
  unfold Memory.store
  split_ifs with h1
  · rw [m.lookup_erase_same _ a h]; simpa using h1
  · simp

/-! ### The canonical form -/

theorem Memory.mem_insert (m : Memory) (a : Nat) (v : Byte) (c : Host.Cell) (h : c ∈ m.insert a v) :
    c = (a, v) ∨ c ∈ m := by
  induction m with
  | nil => simpa [Memory.insert] using h
  | cons d m ih =>
    obtain ⟨b, u⟩ := d
    simp only [Memory.insert] at h
    split_ifs at h with h1 h2
    · simpa using h
    · rcases List.mem_cons.1 h with h | h
      · exact .inl h
      · exact .inr (by simp [h])
    · rcases List.mem_cons.1 h with h | h
      · exact .inr (by simp [h])
      · exact (ih h).imp id fun h => by simp [h]

theorem Memory.mem_erase (m : Memory) (a : Nat) (c : Host.Cell) (h : c ∈ m.erase a) : c ∈ m := by
  induction m with
  | nil => exact h
  | cons d m ih =>
    obtain ⟨b, u⟩ := d
    simp only [Memory.erase] at h
    split_ifs at h
    · simp [h]
    · rcases List.mem_cons.1 h with h | h
      · simp [h]
      · simp [ih h]

theorem Memory.mem_store (blank : Option Byte) (m : Memory) (a : Nat) (v : Byte) (c : Host.Cell)
    (h : c ∈ m.store blank a v) : c = (a, v) ∨ c ∈ m := by
  unfold Memory.store at h
  split_ifs at h
  · exact .inr (m.mem_erase a c h)
  · exact m.mem_insert a v c h

theorem Memory.insert_pairwise (m : Memory) (a : Nat) (v : Byte)
    (h : m.Pairwise fun c d => c.1 < d.1) : (m.insert a v).Pairwise fun c d => c.1 < d.1 := by
  induction m with
  | nil => simp [Memory.insert]
  | cons d m ih =>
    obtain ⟨b, u⟩ := d
    rw [List.pairwise_cons] at h
    simp only [Memory.insert]
    split_ifs with h1 h2
    · refine List.pairwise_cons.2 ⟨fun c hc => ?_, List.pairwise_cons.2 h⟩
      rcases List.mem_cons.1 hc with rfl | hc
      · exact h1
      · exact h1.trans (h.1 c hc)
    · subst h2; exact List.pairwise_cons.2 h
    · refine List.pairwise_cons.2 ⟨fun c hc => ?_, ih h.2⟩
      rcases Memory.mem_insert m a v c hc with rfl | hc
      · change b < a; omega
      · exact h.1 c hc

theorem Memory.erase_pairwise (m : Memory) (a : Nat)
    (h : m.Pairwise fun c d => c.1 < d.1) : (m.erase a).Pairwise fun c d => c.1 < d.1 := by
  induction m with
  | nil => exact h
  | cons d m ih =>
    obtain ⟨b, u⟩ := d
    rw [List.pairwise_cons] at h
    simp only [Memory.erase]
    split_ifs
    · exact h.2
    · exact List.pairwise_cons.2 ⟨fun c hc => h.1 c (Memory.mem_erase m a c hc), ih h.2⟩

/-- Every write keeps the canonical form. -/
theorem Memory.store_wf (blank : Option Byte) (m : Memory) (a : Nat) (v : Byte) (h : m.wf blank) :
    (m.store blank a v).wf blank := by
  refine ⟨?_, fun c hc => ?_⟩
  · unfold Memory.store
    split_ifs
    · exact m.erase_pairwise a h.1
    · exact m.insert_pairwise a v h.1
  · unfold Memory.store at hc
    split_ifs at hc with hb
    · exact h.2 c (m.mem_erase a c hc)
    · rcases m.mem_insert a v c hc with rfl | hc
      · exact hb
      · exact h.2 c hc

theorem loadBytes_wf (m : Memory) (a : ProgAddr) (vs : List Byte) (h : m.wf (some Config.erasedByte)) :
    (loadBytes m a vs).wf (some Config.erasedByte) := by
  induction vs generalizing m a with
  | nil => exact h
  | cons v vs ih => exact ih _ _ (m.store_wf _ _ _ h)

theorem reset_ram_wf : State.reset.ram.wf none := by decide

theorem reset_prog_wf : State.reset.prog.wf (some Config.erasedByte) := by decide

end Sys2Proof.Machine
end

