-- ==== Sys2Proof/Laws/State.lean ====
section
/-! SUPPORT. For every named update of the state, what each field holds after it: one lemma a field. -/

namespace Sys2Proof.Machine

/-! ### setPc: the PC alone -/

@[simp] theorem State.setPc_cfg (s : State) (a : ProgAddr) : (s.setPc a).cfg = s.cfg := rfl
@[simp] theorem State.setPc_prog (s : State) (a : ProgAddr) : (s.setPc a).prog = s.prog := rfl
@[simp] theorem State.setPc_pc (s : State) (a : ProgAddr) : (s.setPc a).pc = a &&& 0x1FFFFE#21 := rfl
@[simp] theorem State.setPc_w (s : State) (a : ProgAddr) : (s.setPc a).w = s.w := rfl
@[simp] theorem State.setPc_flags (s : State) (a : ProgAddr) : (s.setPc a).flags = s.flags := rfl
@[simp] theorem State.setPc_bsr (s : State) (a : ProgAddr) : (s.setPc a).bsr = s.bsr := rfl
@[simp] theorem State.setPc_fsr0 (s : State) (a : ProgAddr) : (s.setPc a).fsr0 = s.fsr0 := rfl
@[simp] theorem State.setPc_fsr1 (s : State) (a : ProgAddr) : (s.setPc a).fsr1 = s.fsr1 := rfl
@[simp] theorem State.setPc_fsr2 (s : State) (a : ProgAddr) : (s.setPc a).fsr2 = s.fsr2 := rfl
@[simp] theorem State.setPc_prodh (s : State) (a : ProgAddr) : (s.setPc a).prodh = s.prodh := rfl
@[simp] theorem State.setPc_prodl (s : State) (a : ProgAddr) : (s.setPc a).prodl = s.prodl := rfl
@[simp] theorem State.setPc_pclath (s : State) (a : ProgAddr) : (s.setPc a).pclath = s.pclath := rfl
@[simp] theorem State.setPc_pclatu (s : State) (a : ProgAddr) : (s.setPc a).pclatu = s.pclatu := rfl
@[simp] theorem State.setPc_stack (s : State) (a : ProgAddr) : (s.setPc a).stack = s.stack := rfl
@[simp] theorem State.setPc_stkful (s : State) (a : ProgAddr) : (s.setPc a).stkful = s.stkful := rfl
@[simp] theorem State.setPc_stkunf (s : State) (a : ProgAddr) : (s.setPc a).stkunf = s.stkunf := rfl
@[simp] theorem State.setPc_ws (s : State) (a : ProgAddr) : (s.setPc a).ws = s.ws := rfl
@[simp] theorem State.setPc_statuss (s : State) (a : ProgAddr) : (s.setPc a).statuss = s.statuss := rfl
@[simp] theorem State.setPc_bsrs (s : State) (a : ProgAddr) : (s.setPc a).bsrs = s.bsrs := rfl
@[simp] theorem State.setPc_tblptr (s : State) (a : ProgAddr) : (s.setPc a).tblptr = s.tblptr := rfl
@[simp] theorem State.setPc_tablat (s : State) (a : ProgAddr) : (s.setPc a).tablat = s.tablat := rfl
@[simp] theorem State.setPc_holding (s : State) (a : ProgAddr) : (s.setPc a).holding = s.holding := rfl
@[simp] theorem State.setPc_intcon (s : State) (a : ProgAddr) : (s.setPc a).intcon = s.intcon := rfl
@[simp] theorem State.setPc_rcon (s : State) (a : ProgAddr) : (s.setPc a).rcon = s.rcon := rfl
@[simp] theorem State.setPc_wdt (s : State) (a : ProgAddr) : (s.setPc a).wdt = s.wdt := rfl
@[simp] theorem State.setPc_wdtPost (s : State) (a : ProgAddr) : (s.setPc a).wdtPost = s.wdtPost := rfl
@[simp] theorem State.setPc_asleep (s : State) (a : ProgAddr) : (s.setPc a).asleep = s.asleep := rfl
@[simp] theorem State.setPc_ram (s : State) (a : ProgAddr) : (s.setPc a).ram = s.ram := rfl
@[simp] theorem State.setPc_ramEpoch (s : State) (a : ProgAddr) : (s.setPc a).ramEpoch = s.ramEpoch := rfl
@[simp] theorem State.setPc_draws (s : State) (a : ProgAddr) : (s.setPc a).draws = s.draws := rfl
@[simp] theorem State.setPc_outputs (s : State) (a : ProgAddr) : (s.setPc a).outputs = s.outputs := rfl
@[simp] theorem State.setPc_env (s : State) (a : ProgAddr) : (s.setPc a).env = s.env := rfl

/-! ### advance: the PC alone -/

@[simp] theorem State.advance_cfg (s : State) (n : ProgAddr) : (s.advance n).cfg = s.cfg := rfl
@[simp] theorem State.advance_prog (s : State) (n : ProgAddr) : (s.advance n).prog = s.prog := rfl
@[simp] theorem State.advance_pc (s : State) (n : ProgAddr) :
    (s.advance n).pc = (s.pc + n) &&& 0x1FFFFE#21 := rfl
@[simp] theorem State.advance_w (s : State) (n : ProgAddr) : (s.advance n).w = s.w := rfl
@[simp] theorem State.advance_flags (s : State) (n : ProgAddr) : (s.advance n).flags = s.flags := rfl
@[simp] theorem State.advance_bsr (s : State) (n : ProgAddr) : (s.advance n).bsr = s.bsr := rfl
@[simp] theorem State.advance_fsr0 (s : State) (n : ProgAddr) : (s.advance n).fsr0 = s.fsr0 := rfl
@[simp] theorem State.advance_fsr1 (s : State) (n : ProgAddr) : (s.advance n).fsr1 = s.fsr1 := rfl
@[simp] theorem State.advance_fsr2 (s : State) (n : ProgAddr) : (s.advance n).fsr2 = s.fsr2 := rfl
@[simp] theorem State.advance_prodh (s : State) (n : ProgAddr) : (s.advance n).prodh = s.prodh := rfl
@[simp] theorem State.advance_prodl (s : State) (n : ProgAddr) : (s.advance n).prodl = s.prodl := rfl
@[simp] theorem State.advance_pclath (s : State) (n : ProgAddr) : (s.advance n).pclath = s.pclath := rfl
@[simp] theorem State.advance_pclatu (s : State) (n : ProgAddr) : (s.advance n).pclatu = s.pclatu := rfl
@[simp] theorem State.advance_stack (s : State) (n : ProgAddr) : (s.advance n).stack = s.stack := rfl
@[simp] theorem State.advance_stkful (s : State) (n : ProgAddr) : (s.advance n).stkful = s.stkful := rfl
@[simp] theorem State.advance_stkunf (s : State) (n : ProgAddr) : (s.advance n).stkunf = s.stkunf := rfl
@[simp] theorem State.advance_ws (s : State) (n : ProgAddr) : (s.advance n).ws = s.ws := rfl
@[simp] theorem State.advance_statuss (s : State) (n : ProgAddr) : (s.advance n).statuss = s.statuss := rfl
@[simp] theorem State.advance_bsrs (s : State) (n : ProgAddr) : (s.advance n).bsrs = s.bsrs := rfl
@[simp] theorem State.advance_tblptr (s : State) (n : ProgAddr) : (s.advance n).tblptr = s.tblptr := rfl
@[simp] theorem State.advance_tablat (s : State) (n : ProgAddr) : (s.advance n).tablat = s.tablat := rfl
@[simp] theorem State.advance_holding (s : State) (n : ProgAddr) : (s.advance n).holding = s.holding := rfl
@[simp] theorem State.advance_intcon (s : State) (n : ProgAddr) : (s.advance n).intcon = s.intcon := rfl
@[simp] theorem State.advance_rcon (s : State) (n : ProgAddr) : (s.advance n).rcon = s.rcon := rfl
@[simp] theorem State.advance_wdt (s : State) (n : ProgAddr) : (s.advance n).wdt = s.wdt := rfl
@[simp] theorem State.advance_wdtPost (s : State) (n : ProgAddr) : (s.advance n).wdtPost = s.wdtPost := rfl
@[simp] theorem State.advance_asleep (s : State) (n : ProgAddr) : (s.advance n).asleep = s.asleep := rfl
@[simp] theorem State.advance_ram (s : State) (n : ProgAddr) : (s.advance n).ram = s.ram := rfl
@[simp] theorem State.advance_ramEpoch (s : State) (n : ProgAddr) : (s.advance n).ramEpoch = s.ramEpoch := rfl
@[simp] theorem State.advance_draws (s : State) (n : ProgAddr) : (s.advance n).draws = s.draws := rfl
@[simp] theorem State.advance_outputs (s : State) (n : ProgAddr) : (s.advance n).outputs = s.outputs := rfl
@[simp] theorem State.advance_env (s : State) (n : ProgAddr) : (s.advance n).env = s.env := rfl

/-! ### setFsr: one FSR alone -/

@[simp] theorem State.setFsr_cfg (s : State) (n : Fsr) (v : DataAddr) :
    (s.setFsr n v).cfg = s.cfg := by cases n <;> rfl
@[simp] theorem State.setFsr_prog (s : State) (n : Fsr) (v : DataAddr) :
    (s.setFsr n v).prog = s.prog := by cases n <;> rfl
@[simp] theorem State.setFsr_pc (s : State) (n : Fsr) (v : DataAddr) :
    (s.setFsr n v).pc = s.pc := by cases n <;> rfl
@[simp] theorem State.setFsr_w (s : State) (n : Fsr) (v : DataAddr) :
    (s.setFsr n v).w = s.w := by cases n <;> rfl
@[simp] theorem State.setFsr_flags (s : State) (n : Fsr) (v : DataAddr) :
    (s.setFsr n v).flags = s.flags := by cases n <;> rfl
@[simp] theorem State.setFsr_bsr (s : State) (n : Fsr) (v : DataAddr) :
    (s.setFsr n v).bsr = s.bsr := by cases n <;> rfl
@[simp] theorem State.setFsr_prodh (s : State) (n : Fsr) (v : DataAddr) :
    (s.setFsr n v).prodh = s.prodh := by cases n <;> rfl
@[simp] theorem State.setFsr_prodl (s : State) (n : Fsr) (v : DataAddr) :
    (s.setFsr n v).prodl = s.prodl := by cases n <;> rfl
@[simp] theorem State.setFsr_pclath (s : State) (n : Fsr) (v : DataAddr) :
    (s.setFsr n v).pclath = s.pclath := by cases n <;> rfl
@[simp] theorem State.setFsr_pclatu (s : State) (n : Fsr) (v : DataAddr) :
    (s.setFsr n v).pclatu = s.pclatu := by cases n <;> rfl
@[simp] theorem State.setFsr_stack (s : State) (n : Fsr) (v : DataAddr) :
    (s.setFsr n v).stack = s.stack := by cases n <;> rfl
@[simp] theorem State.setFsr_stkful (s : State) (n : Fsr) (v : DataAddr) :
    (s.setFsr n v).stkful = s.stkful := by cases n <;> rfl
@[simp] theorem State.setFsr_stkunf (s : State) (n : Fsr) (v : DataAddr) :
    (s.setFsr n v).stkunf = s.stkunf := by cases n <;> rfl
@[simp] theorem State.setFsr_ws (s : State) (n : Fsr) (v : DataAddr) :
    (s.setFsr n v).ws = s.ws := by cases n <;> rfl
@[simp] theorem State.setFsr_statuss (s : State) (n : Fsr) (v : DataAddr) :
    (s.setFsr n v).statuss = s.statuss := by cases n <;> rfl
@[simp] theorem State.setFsr_bsrs (s : State) (n : Fsr) (v : DataAddr) :
    (s.setFsr n v).bsrs = s.bsrs := by cases n <;> rfl
@[simp] theorem State.setFsr_tblptr (s : State) (n : Fsr) (v : DataAddr) :
    (s.setFsr n v).tblptr = s.tblptr := by cases n <;> rfl
@[simp] theorem State.setFsr_tablat (s : State) (n : Fsr) (v : DataAddr) :
    (s.setFsr n v).tablat = s.tablat := by cases n <;> rfl
@[simp] theorem State.setFsr_holding (s : State) (n : Fsr) (v : DataAddr) :
    (s.setFsr n v).holding = s.holding := by cases n <;> rfl
@[simp] theorem State.setFsr_intcon (s : State) (n : Fsr) (v : DataAddr) :
    (s.setFsr n v).intcon = s.intcon := by cases n <;> rfl
@[simp] theorem State.setFsr_rcon (s : State) (n : Fsr) (v : DataAddr) :
    (s.setFsr n v).rcon = s.rcon := by cases n <;> rfl
@[simp] theorem State.setFsr_wdt (s : State) (n : Fsr) (v : DataAddr) :
    (s.setFsr n v).wdt = s.wdt := by cases n <;> rfl
@[simp] theorem State.setFsr_wdtPost (s : State) (n : Fsr) (v : DataAddr) :
    (s.setFsr n v).wdtPost = s.wdtPost := by cases n <;> rfl
@[simp] theorem State.setFsr_asleep (s : State) (n : Fsr) (v : DataAddr) :
    (s.setFsr n v).asleep = s.asleep := by cases n <;> rfl
@[simp] theorem State.setFsr_ram (s : State) (n : Fsr) (v : DataAddr) :
    (s.setFsr n v).ram = s.ram := by cases n <;> rfl
@[simp] theorem State.setFsr_ramEpoch (s : State) (n : Fsr) (v : DataAddr) :
    (s.setFsr n v).ramEpoch = s.ramEpoch := by cases n <;> rfl
@[simp] theorem State.setFsr_draws (s : State) (n : Fsr) (v : DataAddr) :
    (s.setFsr n v).draws = s.draws := by cases n <;> rfl
@[simp] theorem State.setFsr_outputs (s : State) (n : Fsr) (v : DataAddr) :
    (s.setFsr n v).outputs = s.outputs := by cases n <;> rfl
@[simp] theorem State.setFsr_env (s : State) (n : Fsr) (v : DataAddr) :
    (s.setFsr n v).env = s.env := by cases n <;> rfl
@[simp] theorem State.setFsr0_fsr0 (s : State) (v : DataAddr) : (s.setFsr .fsr0 v).fsr0 = v := rfl
@[simp] theorem State.setFsr0_fsr1 (s : State) (v : DataAddr) : (s.setFsr .fsr0 v).fsr1 = s.fsr1 := rfl
@[simp] theorem State.setFsr0_fsr2 (s : State) (v : DataAddr) : (s.setFsr .fsr0 v).fsr2 = s.fsr2 := rfl
@[simp] theorem State.setFsr1_fsr0 (s : State) (v : DataAddr) : (s.setFsr .fsr1 v).fsr0 = s.fsr0 := rfl
@[simp] theorem State.setFsr1_fsr1 (s : State) (v : DataAddr) : (s.setFsr .fsr1 v).fsr1 = v := rfl
@[simp] theorem State.setFsr1_fsr2 (s : State) (v : DataAddr) : (s.setFsr .fsr1 v).fsr2 = s.fsr2 := rfl
@[simp] theorem State.setFsr2_fsr0 (s : State) (v : DataAddr) : (s.setFsr .fsr2 v).fsr0 = s.fsr0 := rfl
@[simp] theorem State.setFsr2_fsr1 (s : State) (v : DataAddr) : (s.setFsr .fsr2 v).fsr1 = s.fsr1 := rfl
@[simp] theorem State.setFsr2_fsr2 (s : State) (v : DataAddr) : (s.setFsr .fsr2 v).fsr2 = v := rfl
@[simp] theorem State.setFsr_fsr (s : State) (n : Fsr) (v : DataAddr) : (s.setFsr n v).fsr n = v := by
  cases n <;> rfl
theorem State.setFsr_fsr_other (s : State) {n m : Fsr} (v : DataAddr) (h : m ≠ n) :
    (s.setFsr n v).fsr m = s.fsr m := by
  cases n <;> cases m <;> first | rfl | exact absurd rfl h
@[simp] theorem State.setFsr_self (s : State) (n : Fsr) : s.setFsr n (s.fsr n) = s := by cases n <;> rfl

/-! ### setProd: PRODH and PRODL -/

@[simp] theorem State.setProd_cfg (s : State) (x y : Byte) : (s.setProd x y).cfg = s.cfg := rfl
@[simp] theorem State.setProd_prog (s : State) (x y : Byte) : (s.setProd x y).prog = s.prog := rfl
@[simp] theorem State.setProd_pc (s : State) (x y : Byte) : (s.setProd x y).pc = s.pc := rfl
@[simp] theorem State.setProd_w (s : State) (x y : Byte) : (s.setProd x y).w = s.w := rfl
@[simp] theorem State.setProd_flags (s : State) (x y : Byte) : (s.setProd x y).flags = s.flags := rfl
@[simp] theorem State.setProd_bsr (s : State) (x y : Byte) : (s.setProd x y).bsr = s.bsr := rfl
@[simp] theorem State.setProd_fsr0 (s : State) (x y : Byte) : (s.setProd x y).fsr0 = s.fsr0 := rfl
@[simp] theorem State.setProd_fsr1 (s : State) (x y : Byte) : (s.setProd x y).fsr1 = s.fsr1 := rfl
@[simp] theorem State.setProd_fsr2 (s : State) (x y : Byte) : (s.setProd x y).fsr2 = s.fsr2 := rfl
@[simp] theorem State.setProd_prodh (s : State) (x y : Byte) :
    (s.setProd x y).prodh = (x.setWidth 16 * y.setWidth 16).extractLsb' 8 8 := rfl
@[simp] theorem State.setProd_prodl (s : State) (x y : Byte) :
    (s.setProd x y).prodl = (x.setWidth 16 * y.setWidth 16).extractLsb' 0 8 := rfl
@[simp] theorem State.setProd_pclath (s : State) (x y : Byte) : (s.setProd x y).pclath = s.pclath := rfl
@[simp] theorem State.setProd_pclatu (s : State) (x y : Byte) : (s.setProd x y).pclatu = s.pclatu := rfl
@[simp] theorem State.setProd_stack (s : State) (x y : Byte) : (s.setProd x y).stack = s.stack := rfl
@[simp] theorem State.setProd_stkful (s : State) (x y : Byte) : (s.setProd x y).stkful = s.stkful := rfl
@[simp] theorem State.setProd_stkunf (s : State) (x y : Byte) : (s.setProd x y).stkunf = s.stkunf := rfl
@[simp] theorem State.setProd_ws (s : State) (x y : Byte) : (s.setProd x y).ws = s.ws := rfl
@[simp] theorem State.setProd_statuss (s : State) (x y : Byte) : (s.setProd x y).statuss = s.statuss := rfl
@[simp] theorem State.setProd_bsrs (s : State) (x y : Byte) : (s.setProd x y).bsrs = s.bsrs := rfl
@[simp] theorem State.setProd_tblptr (s : State) (x y : Byte) : (s.setProd x y).tblptr = s.tblptr := rfl
@[simp] theorem State.setProd_tablat (s : State) (x y : Byte) : (s.setProd x y).tablat = s.tablat := rfl
@[simp] theorem State.setProd_holding (s : State) (x y : Byte) : (s.setProd x y).holding = s.holding := rfl
@[simp] theorem State.setProd_intcon (s : State) (x y : Byte) : (s.setProd x y).intcon = s.intcon := rfl
@[simp] theorem State.setProd_rcon (s : State) (x y : Byte) : (s.setProd x y).rcon = s.rcon := rfl
@[simp] theorem State.setProd_wdt (s : State) (x y : Byte) : (s.setProd x y).wdt = s.wdt := rfl
@[simp] theorem State.setProd_wdtPost (s : State) (x y : Byte) : (s.setProd x y).wdtPost = s.wdtPost := rfl
@[simp] theorem State.setProd_asleep (s : State) (x y : Byte) : (s.setProd x y).asleep = s.asleep := rfl
@[simp] theorem State.setProd_ram (s : State) (x y : Byte) : (s.setProd x y).ram = s.ram := rfl
@[simp] theorem State.setProd_ramEpoch (s : State) (x y : Byte) : (s.setProd x y).ramEpoch = s.ramEpoch := rfl
@[simp] theorem State.setProd_draws (s : State) (x y : Byte) : (s.setProd x y).draws = s.draws := rfl
@[simp] theorem State.setProd_outputs (s : State) (x y : Byte) : (s.setProd x y).outputs = s.outputs := rfl
@[simp] theorem State.setProd_env (s : State) (x y : Byte) : (s.setProd x y).env = s.env := rfl

/-! ### tableWrite: one holding register -/

@[simp] theorem State.tableWrite_cfg (s : State) : s.tableWrite.cfg = s.cfg := rfl
@[simp] theorem State.tableWrite_prog (s : State) : s.tableWrite.prog = s.prog := rfl
@[simp] theorem State.tableWrite_pc (s : State) : s.tableWrite.pc = s.pc := rfl
@[simp] theorem State.tableWrite_w (s : State) : s.tableWrite.w = s.w := rfl
@[simp] theorem State.tableWrite_flags (s : State) : s.tableWrite.flags = s.flags := rfl
@[simp] theorem State.tableWrite_bsr (s : State) : s.tableWrite.bsr = s.bsr := rfl
@[simp] theorem State.tableWrite_fsr0 (s : State) : s.tableWrite.fsr0 = s.fsr0 := rfl
@[simp] theorem State.tableWrite_fsr1 (s : State) : s.tableWrite.fsr1 = s.fsr1 := rfl
@[simp] theorem State.tableWrite_fsr2 (s : State) : s.tableWrite.fsr2 = s.fsr2 := rfl
@[simp] theorem State.tableWrite_prodh (s : State) : s.tableWrite.prodh = s.prodh := rfl
@[simp] theorem State.tableWrite_prodl (s : State) : s.tableWrite.prodl = s.prodl := rfl
@[simp] theorem State.tableWrite_pclath (s : State) : s.tableWrite.pclath = s.pclath := rfl
@[simp] theorem State.tableWrite_pclatu (s : State) : s.tableWrite.pclatu = s.pclatu := rfl
@[simp] theorem State.tableWrite_stack (s : State) : s.tableWrite.stack = s.stack := rfl
@[simp] theorem State.tableWrite_stkful (s : State) : s.tableWrite.stkful = s.stkful := rfl
@[simp] theorem State.tableWrite_stkunf (s : State) : s.tableWrite.stkunf = s.stkunf := rfl
@[simp] theorem State.tableWrite_ws (s : State) : s.tableWrite.ws = s.ws := rfl
@[simp] theorem State.tableWrite_statuss (s : State) : s.tableWrite.statuss = s.statuss := rfl
@[simp] theorem State.tableWrite_bsrs (s : State) : s.tableWrite.bsrs = s.bsrs := rfl
@[simp] theorem State.tableWrite_tblptr (s : State) : s.tableWrite.tblptr = s.tblptr := rfl
@[simp] theorem State.tableWrite_tablat (s : State) : s.tableWrite.tablat = s.tablat := rfl
@[simp] theorem State.tableWrite_holding (s : State) :
    s.tableWrite.holding = s.holding.set (holdingIndex s.tblptr) s.tablat := rfl
@[simp] theorem State.tableWrite_intcon (s : State) : s.tableWrite.intcon = s.intcon := rfl
@[simp] theorem State.tableWrite_rcon (s : State) : s.tableWrite.rcon = s.rcon := rfl
@[simp] theorem State.tableWrite_wdt (s : State) : s.tableWrite.wdt = s.wdt := rfl
@[simp] theorem State.tableWrite_wdtPost (s : State) : s.tableWrite.wdtPost = s.wdtPost := rfl
@[simp] theorem State.tableWrite_asleep (s : State) : s.tableWrite.asleep = s.asleep := rfl
@[simp] theorem State.tableWrite_ram (s : State) : s.tableWrite.ram = s.ram := rfl
@[simp] theorem State.tableWrite_ramEpoch (s : State) : s.tableWrite.ramEpoch = s.ramEpoch := rfl
@[simp] theorem State.tableWrite_draws (s : State) : s.tableWrite.draws = s.draws := rfl
@[simp] theorem State.tableWrite_outputs (s : State) : s.tableWrite.outputs = s.outputs := rfl
@[simp] theorem State.tableWrite_env (s : State) : s.tableWrite.env = s.env := rfl

/-! ### moveTblptr: TBLPTR alone -/

@[simp] theorem State.moveTblptr_cfg (s : State) (n : ProgAddr) : (s.moveTblptr n).cfg = s.cfg := rfl
@[simp] theorem State.moveTblptr_prog (s : State) (n : ProgAddr) : (s.moveTblptr n).prog = s.prog := rfl
@[simp] theorem State.moveTblptr_pc (s : State) (n : ProgAddr) : (s.moveTblptr n).pc = s.pc := rfl
@[simp] theorem State.moveTblptr_w (s : State) (n : ProgAddr) : (s.moveTblptr n).w = s.w := rfl
@[simp] theorem State.moveTblptr_flags (s : State) (n : ProgAddr) : (s.moveTblptr n).flags = s.flags := rfl
@[simp] theorem State.moveTblptr_bsr (s : State) (n : ProgAddr) : (s.moveTblptr n).bsr = s.bsr := rfl
@[simp] theorem State.moveTblptr_fsr0 (s : State) (n : ProgAddr) : (s.moveTblptr n).fsr0 = s.fsr0 := rfl
@[simp] theorem State.moveTblptr_fsr1 (s : State) (n : ProgAddr) : (s.moveTblptr n).fsr1 = s.fsr1 := rfl
@[simp] theorem State.moveTblptr_fsr2 (s : State) (n : ProgAddr) : (s.moveTblptr n).fsr2 = s.fsr2 := rfl
@[simp] theorem State.moveTblptr_prodh (s : State) (n : ProgAddr) : (s.moveTblptr n).prodh = s.prodh := rfl
@[simp] theorem State.moveTblptr_prodl (s : State) (n : ProgAddr) : (s.moveTblptr n).prodl = s.prodl := rfl
@[simp] theorem State.moveTblptr_pclath (s : State) (n : ProgAddr) : (s.moveTblptr n).pclath = s.pclath := rfl
@[simp] theorem State.moveTblptr_pclatu (s : State) (n : ProgAddr) : (s.moveTblptr n).pclatu = s.pclatu := rfl
@[simp] theorem State.moveTblptr_stack (s : State) (n : ProgAddr) : (s.moveTblptr n).stack = s.stack := rfl
@[simp] theorem State.moveTblptr_stkful (s : State) (n : ProgAddr) : (s.moveTblptr n).stkful = s.stkful := rfl
@[simp] theorem State.moveTblptr_stkunf (s : State) (n : ProgAddr) : (s.moveTblptr n).stkunf = s.stkunf := rfl
@[simp] theorem State.moveTblptr_ws (s : State) (n : ProgAddr) : (s.moveTblptr n).ws = s.ws := rfl
@[simp] theorem State.moveTblptr_statuss (s : State) (n : ProgAddr) :
    (s.moveTblptr n).statuss = s.statuss := rfl
@[simp] theorem State.moveTblptr_bsrs (s : State) (n : ProgAddr) : (s.moveTblptr n).bsrs = s.bsrs := rfl
@[simp] theorem State.moveTblptr_tblptr (s : State) (n : ProgAddr) :
    (s.moveTblptr n).tblptr = s.tblptr + n := rfl
@[simp] theorem State.moveTblptr_tablat (s : State) (n : ProgAddr) : (s.moveTblptr n).tablat = s.tablat := rfl
@[simp] theorem State.moveTblptr_holding (s : State) (n : ProgAddr) :
    (s.moveTblptr n).holding = s.holding := rfl
@[simp] theorem State.moveTblptr_intcon (s : State) (n : ProgAddr) : (s.moveTblptr n).intcon = s.intcon := rfl
@[simp] theorem State.moveTblptr_rcon (s : State) (n : ProgAddr) : (s.moveTblptr n).rcon = s.rcon := rfl
@[simp] theorem State.moveTblptr_wdt (s : State) (n : ProgAddr) : (s.moveTblptr n).wdt = s.wdt := rfl
@[simp] theorem State.moveTblptr_wdtPost (s : State) (n : ProgAddr) :
    (s.moveTblptr n).wdtPost = s.wdtPost := rfl
@[simp] theorem State.moveTblptr_asleep (s : State) (n : ProgAddr) : (s.moveTblptr n).asleep = s.asleep := rfl
@[simp] theorem State.moveTblptr_ram (s : State) (n : ProgAddr) : (s.moveTblptr n).ram = s.ram := rfl
@[simp] theorem State.moveTblptr_ramEpoch (s : State) (n : ProgAddr) :
    (s.moveTblptr n).ramEpoch = s.ramEpoch := rfl
@[simp] theorem State.moveTblptr_draws (s : State) (n : ProgAddr) : (s.moveTblptr n).draws = s.draws := rfl
@[simp] theorem State.moveTblptr_outputs (s : State) (n : ProgAddr) :
    (s.moveTblptr n).outputs = s.outputs := rfl
@[simp] theorem State.moveTblptr_env (s : State) (n : ProgAddr) : (s.moveTblptr n).env = s.env := rfl

/-! ### setTos: the stack alone -/

@[simp] theorem State.setTos_cfg (s : State) (v : ProgAddr) :
    (s.setTos v).cfg = s.cfg := by unfold State.setTos; split <;> rfl
@[simp] theorem State.setTos_prog (s : State) (v : ProgAddr) :
    (s.setTos v).prog = s.prog := by unfold State.setTos; split <;> rfl
@[simp] theorem State.setTos_pc (s : State) (v : ProgAddr) :
    (s.setTos v).pc = s.pc := by unfold State.setTos; split <;> rfl
@[simp] theorem State.setTos_w (s : State) (v : ProgAddr) :
    (s.setTos v).w = s.w := by unfold State.setTos; split <;> rfl
@[simp] theorem State.setTos_flags (s : State) (v : ProgAddr) :
    (s.setTos v).flags = s.flags := by unfold State.setTos; split <;> rfl
@[simp] theorem State.setTos_bsr (s : State) (v : ProgAddr) :
    (s.setTos v).bsr = s.bsr := by unfold State.setTos; split <;> rfl
@[simp] theorem State.setTos_fsr0 (s : State) (v : ProgAddr) :
    (s.setTos v).fsr0 = s.fsr0 := by unfold State.setTos; split <;> rfl
@[simp] theorem State.setTos_fsr1 (s : State) (v : ProgAddr) :
    (s.setTos v).fsr1 = s.fsr1 := by unfold State.setTos; split <;> rfl
@[simp] theorem State.setTos_fsr2 (s : State) (v : ProgAddr) :
    (s.setTos v).fsr2 = s.fsr2 := by unfold State.setTos; split <;> rfl
@[simp] theorem State.setTos_prodh (s : State) (v : ProgAddr) :
    (s.setTos v).prodh = s.prodh := by unfold State.setTos; split <;> rfl
@[simp] theorem State.setTos_prodl (s : State) (v : ProgAddr) :
    (s.setTos v).prodl = s.prodl := by unfold State.setTos; split <;> rfl
@[simp] theorem State.setTos_pclath (s : State) (v : ProgAddr) :
    (s.setTos v).pclath = s.pclath := by unfold State.setTos; split <;> rfl
@[simp] theorem State.setTos_pclatu (s : State) (v : ProgAddr) :
    (s.setTos v).pclatu = s.pclatu := by unfold State.setTos; split <;> rfl
@[simp] theorem State.setTos_stkful (s : State) (v : ProgAddr) :
    (s.setTos v).stkful = s.stkful := by unfold State.setTos; split <;> rfl
@[simp] theorem State.setTos_stkunf (s : State) (v : ProgAddr) :
    (s.setTos v).stkunf = s.stkunf := by unfold State.setTos; split <;> rfl
@[simp] theorem State.setTos_ws (s : State) (v : ProgAddr) :
    (s.setTos v).ws = s.ws := by unfold State.setTos; split <;> rfl
@[simp] theorem State.setTos_statuss (s : State) (v : ProgAddr) :
    (s.setTos v).statuss = s.statuss := by unfold State.setTos; split <;> rfl
@[simp] theorem State.setTos_bsrs (s : State) (v : ProgAddr) :
    (s.setTos v).bsrs = s.bsrs := by unfold State.setTos; split <;> rfl
@[simp] theorem State.setTos_tblptr (s : State) (v : ProgAddr) :
    (s.setTos v).tblptr = s.tblptr := by unfold State.setTos; split <;> rfl
@[simp] theorem State.setTos_tablat (s : State) (v : ProgAddr) :
    (s.setTos v).tablat = s.tablat := by unfold State.setTos; split <;> rfl
@[simp] theorem State.setTos_holding (s : State) (v : ProgAddr) :
    (s.setTos v).holding = s.holding := by unfold State.setTos; split <;> rfl
@[simp] theorem State.setTos_intcon (s : State) (v : ProgAddr) :
    (s.setTos v).intcon = s.intcon := by unfold State.setTos; split <;> rfl
@[simp] theorem State.setTos_rcon (s : State) (v : ProgAddr) :
    (s.setTos v).rcon = s.rcon := by unfold State.setTos; split <;> rfl
@[simp] theorem State.setTos_wdt (s : State) (v : ProgAddr) :
    (s.setTos v).wdt = s.wdt := by unfold State.setTos; split <;> rfl
@[simp] theorem State.setTos_wdtPost (s : State) (v : ProgAddr) :
    (s.setTos v).wdtPost = s.wdtPost := by unfold State.setTos; split <;> rfl
@[simp] theorem State.setTos_asleep (s : State) (v : ProgAddr) :
    (s.setTos v).asleep = s.asleep := by unfold State.setTos; split <;> rfl
@[simp] theorem State.setTos_ram (s : State) (v : ProgAddr) :
    (s.setTos v).ram = s.ram := by unfold State.setTos; split <;> rfl
@[simp] theorem State.setTos_ramEpoch (s : State) (v : ProgAddr) :
    (s.setTos v).ramEpoch = s.ramEpoch := by unfold State.setTos; split <;> rfl
@[simp] theorem State.setTos_draws (s : State) (v : ProgAddr) :
    (s.setTos v).draws = s.draws := by unfold State.setTos; split <;> rfl
@[simp] theorem State.setTos_outputs (s : State) (v : ProgAddr) :
    (s.setTos v).outputs = s.outputs := by unfold State.setTos; split <;> rfl
@[simp] theorem State.setTos_env (s : State) (v : ProgAddr) :
    (s.setTos v).env = s.env := by unfold State.setTos; split <;> rfl
theorem State.setTos_empty (s : State) (v : ProgAddr) (h : s.stack = []) : s.setTos v = s := by
  simp [State.setTos, h]
theorem State.setTos_cons (s : State) (v u : ProgAddr) (rest : List ProgAddr) (h : s.stack = u :: rest) :
    s.setTos v = { s with stack := v :: rest } := by
  simp [State.setTos, h]
@[simp] theorem State.setTos_length (s : State) (v : ProgAddr) : (s.setTos v).stack.length = s.stack.length := by
  unfold State.setTos; split <;> simp_all

/-! ### saveFast: the three shadow registers -/

@[simp] theorem State.saveFast_cfg (s : State) : s.saveFast.cfg = s.cfg := rfl
@[simp] theorem State.saveFast_prog (s : State) : s.saveFast.prog = s.prog := rfl
@[simp] theorem State.saveFast_pc (s : State) : s.saveFast.pc = s.pc := rfl
@[simp] theorem State.saveFast_w (s : State) : s.saveFast.w = s.w := rfl
@[simp] theorem State.saveFast_flags (s : State) : s.saveFast.flags = s.flags := rfl
@[simp] theorem State.saveFast_bsr (s : State) : s.saveFast.bsr = s.bsr := rfl
@[simp] theorem State.saveFast_fsr0 (s : State) : s.saveFast.fsr0 = s.fsr0 := rfl
@[simp] theorem State.saveFast_fsr1 (s : State) : s.saveFast.fsr1 = s.fsr1 := rfl
@[simp] theorem State.saveFast_fsr2 (s : State) : s.saveFast.fsr2 = s.fsr2 := rfl
@[simp] theorem State.saveFast_prodh (s : State) : s.saveFast.prodh = s.prodh := rfl
@[simp] theorem State.saveFast_prodl (s : State) : s.saveFast.prodl = s.prodl := rfl
@[simp] theorem State.saveFast_pclath (s : State) : s.saveFast.pclath = s.pclath := rfl
@[simp] theorem State.saveFast_pclatu (s : State) : s.saveFast.pclatu = s.pclatu := rfl
@[simp] theorem State.saveFast_stack (s : State) : s.saveFast.stack = s.stack := rfl
@[simp] theorem State.saveFast_stkful (s : State) : s.saveFast.stkful = s.stkful := rfl
@[simp] theorem State.saveFast_stkunf (s : State) : s.saveFast.stkunf = s.stkunf := rfl
@[simp] theorem State.saveFast_ws (s : State) : s.saveFast.ws = s.w := rfl
@[simp] theorem State.saveFast_statuss (s : State) :
    s.saveFast.statuss = s.flags.toByte s.cfg.statusLayout := rfl
@[simp] theorem State.saveFast_bsrs (s : State) : s.saveFast.bsrs = s.bsr.setWidth 8 := rfl
@[simp] theorem State.saveFast_tblptr (s : State) : s.saveFast.tblptr = s.tblptr := rfl
@[simp] theorem State.saveFast_tablat (s : State) : s.saveFast.tablat = s.tablat := rfl
@[simp] theorem State.saveFast_holding (s : State) : s.saveFast.holding = s.holding := rfl
@[simp] theorem State.saveFast_intcon (s : State) : s.saveFast.intcon = s.intcon := rfl
@[simp] theorem State.saveFast_rcon (s : State) : s.saveFast.rcon = s.rcon := rfl
@[simp] theorem State.saveFast_wdt (s : State) : s.saveFast.wdt = s.wdt := rfl
@[simp] theorem State.saveFast_wdtPost (s : State) : s.saveFast.wdtPost = s.wdtPost := rfl
@[simp] theorem State.saveFast_asleep (s : State) : s.saveFast.asleep = s.asleep := rfl
@[simp] theorem State.saveFast_ram (s : State) : s.saveFast.ram = s.ram := rfl
@[simp] theorem State.saveFast_ramEpoch (s : State) : s.saveFast.ramEpoch = s.ramEpoch := rfl
@[simp] theorem State.saveFast_draws (s : State) : s.saveFast.draws = s.draws := rfl
@[simp] theorem State.saveFast_outputs (s : State) : s.saveFast.outputs = s.outputs := rfl
@[simp] theorem State.saveFast_env (s : State) : s.saveFast.env = s.env := rfl

/-! ### restoreFast: W, Status and BSR, if asked -/

@[simp] theorem State.restoreFast_cfg (s : State) (b : Bool) :
    (s.restoreFast b).cfg = s.cfg := by cases b <;> rfl
@[simp] theorem State.restoreFast_prog (s : State) (b : Bool) :
    (s.restoreFast b).prog = s.prog := by cases b <;> rfl
@[simp] theorem State.restoreFast_pc (s : State) (b : Bool) : (s.restoreFast b).pc = s.pc := by cases b <;> rfl
@[simp] theorem State.restoreFast_w (s : State) (b : Bool) :
    (s.restoreFast b).w = if b then s.ws else s.w := by cases b <;> rfl
@[simp] theorem State.restoreFast_flags (s : State) (b : Bool) :
    (s.restoreFast b).flags = if b then Flags.ofByte s.cfg.statusLayout s.statuss else s.flags := by cases b <;> rfl
@[simp] theorem State.restoreFast_bsr (s : State) (b : Bool) :
    (s.restoreFast b).bsr = if b then s.bsrs.setWidth 4 else s.bsr := by cases b <;> rfl
@[simp] theorem State.restoreFast_fsr0 (s : State) (b : Bool) :
    (s.restoreFast b).fsr0 = s.fsr0 := by cases b <;> rfl
@[simp] theorem State.restoreFast_fsr1 (s : State) (b : Bool) :
    (s.restoreFast b).fsr1 = s.fsr1 := by cases b <;> rfl
@[simp] theorem State.restoreFast_fsr2 (s : State) (b : Bool) :
    (s.restoreFast b).fsr2 = s.fsr2 := by cases b <;> rfl
@[simp] theorem State.restoreFast_prodh (s : State) (b : Bool) :
    (s.restoreFast b).prodh = s.prodh := by cases b <;> rfl
@[simp] theorem State.restoreFast_prodl (s : State) (b : Bool) :
    (s.restoreFast b).prodl = s.prodl := by cases b <;> rfl
@[simp] theorem State.restoreFast_pclath (s : State) (b : Bool) :
    (s.restoreFast b).pclath = s.pclath := by cases b <;> rfl
@[simp] theorem State.restoreFast_pclatu (s : State) (b : Bool) :
    (s.restoreFast b).pclatu = s.pclatu := by cases b <;> rfl
@[simp] theorem State.restoreFast_stack (s : State) (b : Bool) :
    (s.restoreFast b).stack = s.stack := by cases b <;> rfl
@[simp] theorem State.restoreFast_stkful (s : State) (b : Bool) :
    (s.restoreFast b).stkful = s.stkful := by cases b <;> rfl
@[simp] theorem State.restoreFast_stkunf (s : State) (b : Bool) :
    (s.restoreFast b).stkunf = s.stkunf := by cases b <;> rfl
@[simp] theorem State.restoreFast_ws (s : State) (b : Bool) : (s.restoreFast b).ws = s.ws := by cases b <;> rfl
@[simp] theorem State.restoreFast_statuss (s : State) (b : Bool) :
    (s.restoreFast b).statuss = s.statuss := by cases b <;> rfl
@[simp] theorem State.restoreFast_bsrs (s : State) (b : Bool) :
    (s.restoreFast b).bsrs = s.bsrs := by cases b <;> rfl
@[simp] theorem State.restoreFast_tblptr (s : State) (b : Bool) :
    (s.restoreFast b).tblptr = s.tblptr := by cases b <;> rfl
@[simp] theorem State.restoreFast_tablat (s : State) (b : Bool) :
    (s.restoreFast b).tablat = s.tablat := by cases b <;> rfl
@[simp] theorem State.restoreFast_holding (s : State) (b : Bool) :
    (s.restoreFast b).holding = s.holding := by cases b <;> rfl
@[simp] theorem State.restoreFast_intcon (s : State) (b : Bool) :
    (s.restoreFast b).intcon = s.intcon := by cases b <;> rfl
@[simp] theorem State.restoreFast_rcon (s : State) (b : Bool) :
    (s.restoreFast b).rcon = s.rcon := by cases b <;> rfl
@[simp] theorem State.restoreFast_wdt (s : State) (b : Bool) :
    (s.restoreFast b).wdt = s.wdt := by cases b <;> rfl
@[simp] theorem State.restoreFast_wdtPost (s : State) (b : Bool) :
    (s.restoreFast b).wdtPost = s.wdtPost := by cases b <;> rfl
@[simp] theorem State.restoreFast_asleep (s : State) (b : Bool) :
    (s.restoreFast b).asleep = s.asleep := by cases b <;> rfl
@[simp] theorem State.restoreFast_ram (s : State) (b : Bool) :
    (s.restoreFast b).ram = s.ram := by cases b <;> rfl
@[simp] theorem State.restoreFast_ramEpoch (s : State) (b : Bool) :
    (s.restoreFast b).ramEpoch = s.ramEpoch := by cases b <;> rfl
@[simp] theorem State.restoreFast_draws (s : State) (b : Bool) :
    (s.restoreFast b).draws = s.draws := by cases b <;> rfl
@[simp] theorem State.restoreFast_outputs (s : State) (b : Bool) :
    (s.restoreFast b).outputs = s.outputs := by cases b <;> rfl
@[simp] theorem State.restoreFast_env (s : State) (b : Bool) :
    (s.restoreFast b).env = s.env := by cases b <;> rfl

/-! ### setGieh: INTCON alone -/

@[simp] theorem State.setGieh_cfg (s : State) (b : Bool) : (s.setGieh b).cfg = s.cfg := rfl
@[simp] theorem State.setGieh_prog (s : State) (b : Bool) : (s.setGieh b).prog = s.prog := rfl
@[simp] theorem State.setGieh_pc (s : State) (b : Bool) : (s.setGieh b).pc = s.pc := rfl
@[simp] theorem State.setGieh_w (s : State) (b : Bool) : (s.setGieh b).w = s.w := rfl
@[simp] theorem State.setGieh_flags (s : State) (b : Bool) : (s.setGieh b).flags = s.flags := rfl
@[simp] theorem State.setGieh_bsr (s : State) (b : Bool) : (s.setGieh b).bsr = s.bsr := rfl
@[simp] theorem State.setGieh_fsr0 (s : State) (b : Bool) : (s.setGieh b).fsr0 = s.fsr0 := rfl
@[simp] theorem State.setGieh_fsr1 (s : State) (b : Bool) : (s.setGieh b).fsr1 = s.fsr1 := rfl
@[simp] theorem State.setGieh_fsr2 (s : State) (b : Bool) : (s.setGieh b).fsr2 = s.fsr2 := rfl
@[simp] theorem State.setGieh_prodh (s : State) (b : Bool) : (s.setGieh b).prodh = s.prodh := rfl
@[simp] theorem State.setGieh_prodl (s : State) (b : Bool) : (s.setGieh b).prodl = s.prodl := rfl
@[simp] theorem State.setGieh_pclath (s : State) (b : Bool) : (s.setGieh b).pclath = s.pclath := rfl
@[simp] theorem State.setGieh_pclatu (s : State) (b : Bool) : (s.setGieh b).pclatu = s.pclatu := rfl
@[simp] theorem State.setGieh_stack (s : State) (b : Bool) : (s.setGieh b).stack = s.stack := rfl
@[simp] theorem State.setGieh_stkful (s : State) (b : Bool) : (s.setGieh b).stkful = s.stkful := rfl
@[simp] theorem State.setGieh_stkunf (s : State) (b : Bool) : (s.setGieh b).stkunf = s.stkunf := rfl
@[simp] theorem State.setGieh_ws (s : State) (b : Bool) : (s.setGieh b).ws = s.ws := rfl
@[simp] theorem State.setGieh_statuss (s : State) (b : Bool) : (s.setGieh b).statuss = s.statuss := rfl
@[simp] theorem State.setGieh_bsrs (s : State) (b : Bool) : (s.setGieh b).bsrs = s.bsrs := rfl
@[simp] theorem State.setGieh_tblptr (s : State) (b : Bool) : (s.setGieh b).tblptr = s.tblptr := rfl
@[simp] theorem State.setGieh_tablat (s : State) (b : Bool) : (s.setGieh b).tablat = s.tablat := rfl
@[simp] theorem State.setGieh_holding (s : State) (b : Bool) : (s.setGieh b).holding = s.holding := rfl
@[simp] theorem State.setGieh_intcon (s : State) (b : Bool) : (s.setGieh b).intcon = withBit s.intcon 7 b := rfl
@[simp] theorem State.setGieh_rcon (s : State) (b : Bool) : (s.setGieh b).rcon = s.rcon := rfl
@[simp] theorem State.setGieh_wdt (s : State) (b : Bool) : (s.setGieh b).wdt = s.wdt := rfl
@[simp] theorem State.setGieh_wdtPost (s : State) (b : Bool) : (s.setGieh b).wdtPost = s.wdtPost := rfl
@[simp] theorem State.setGieh_asleep (s : State) (b : Bool) : (s.setGieh b).asleep = s.asleep := rfl
@[simp] theorem State.setGieh_ram (s : State) (b : Bool) : (s.setGieh b).ram = s.ram := rfl
@[simp] theorem State.setGieh_ramEpoch (s : State) (b : Bool) : (s.setGieh b).ramEpoch = s.ramEpoch := rfl
@[simp] theorem State.setGieh_draws (s : State) (b : Bool) : (s.setGieh b).draws = s.draws := rfl
@[simp] theorem State.setGieh_outputs (s : State) (b : Bool) : (s.setGieh b).outputs = s.outputs := rfl
@[simp] theorem State.setGieh_env (s : State) (b : Bool) : (s.setGieh b).env = s.env := rfl

/-! ### setGiel: INTCON alone -/

@[simp] theorem State.setGiel_cfg (s : State) (b : Bool) : (s.setGiel b).cfg = s.cfg := rfl
@[simp] theorem State.setGiel_prog (s : State) (b : Bool) : (s.setGiel b).prog = s.prog := rfl
@[simp] theorem State.setGiel_pc (s : State) (b : Bool) : (s.setGiel b).pc = s.pc := rfl
@[simp] theorem State.setGiel_w (s : State) (b : Bool) : (s.setGiel b).w = s.w := rfl
@[simp] theorem State.setGiel_flags (s : State) (b : Bool) : (s.setGiel b).flags = s.flags := rfl
@[simp] theorem State.setGiel_bsr (s : State) (b : Bool) : (s.setGiel b).bsr = s.bsr := rfl
@[simp] theorem State.setGiel_fsr0 (s : State) (b : Bool) : (s.setGiel b).fsr0 = s.fsr0 := rfl
@[simp] theorem State.setGiel_fsr1 (s : State) (b : Bool) : (s.setGiel b).fsr1 = s.fsr1 := rfl
@[simp] theorem State.setGiel_fsr2 (s : State) (b : Bool) : (s.setGiel b).fsr2 = s.fsr2 := rfl
@[simp] theorem State.setGiel_prodh (s : State) (b : Bool) : (s.setGiel b).prodh = s.prodh := rfl
@[simp] theorem State.setGiel_prodl (s : State) (b : Bool) : (s.setGiel b).prodl = s.prodl := rfl
@[simp] theorem State.setGiel_pclath (s : State) (b : Bool) : (s.setGiel b).pclath = s.pclath := rfl
@[simp] theorem State.setGiel_pclatu (s : State) (b : Bool) : (s.setGiel b).pclatu = s.pclatu := rfl
@[simp] theorem State.setGiel_stack (s : State) (b : Bool) : (s.setGiel b).stack = s.stack := rfl
@[simp] theorem State.setGiel_stkful (s : State) (b : Bool) : (s.setGiel b).stkful = s.stkful := rfl
@[simp] theorem State.setGiel_stkunf (s : State) (b : Bool) : (s.setGiel b).stkunf = s.stkunf := rfl
@[simp] theorem State.setGiel_ws (s : State) (b : Bool) : (s.setGiel b).ws = s.ws := rfl
@[simp] theorem State.setGiel_statuss (s : State) (b : Bool) : (s.setGiel b).statuss = s.statuss := rfl
@[simp] theorem State.setGiel_bsrs (s : State) (b : Bool) : (s.setGiel b).bsrs = s.bsrs := rfl
@[simp] theorem State.setGiel_tblptr (s : State) (b : Bool) : (s.setGiel b).tblptr = s.tblptr := rfl
@[simp] theorem State.setGiel_tablat (s : State) (b : Bool) : (s.setGiel b).tablat = s.tablat := rfl
@[simp] theorem State.setGiel_holding (s : State) (b : Bool) : (s.setGiel b).holding = s.holding := rfl
@[simp] theorem State.setGiel_intcon (s : State) (b : Bool) : (s.setGiel b).intcon = withBit s.intcon 6 b := rfl
@[simp] theorem State.setGiel_rcon (s : State) (b : Bool) : (s.setGiel b).rcon = s.rcon := rfl
@[simp] theorem State.setGiel_wdt (s : State) (b : Bool) : (s.setGiel b).wdt = s.wdt := rfl
@[simp] theorem State.setGiel_wdtPost (s : State) (b : Bool) : (s.setGiel b).wdtPost = s.wdtPost := rfl
@[simp] theorem State.setGiel_asleep (s : State) (b : Bool) : (s.setGiel b).asleep = s.asleep := rfl
@[simp] theorem State.setGiel_ram (s : State) (b : Bool) : (s.setGiel b).ram = s.ram := rfl
@[simp] theorem State.setGiel_ramEpoch (s : State) (b : Bool) : (s.setGiel b).ramEpoch = s.ramEpoch := rfl
@[simp] theorem State.setGiel_draws (s : State) (b : Bool) : (s.setGiel b).draws = s.draws := rfl
@[simp] theorem State.setGiel_outputs (s : State) (b : Bool) : (s.setGiel b).outputs = s.outputs := rfl
@[simp] theorem State.setGiel_env (s : State) (b : Bool) : (s.setGiel b).env = s.env := rfl

/-! ### setToPd: RCON alone -/

@[simp] theorem State.setToPd_cfg (s : State) (t p : Bool) : (s.setToPd t p).cfg = s.cfg := rfl
@[simp] theorem State.setToPd_prog (s : State) (t p : Bool) : (s.setToPd t p).prog = s.prog := rfl
@[simp] theorem State.setToPd_pc (s : State) (t p : Bool) : (s.setToPd t p).pc = s.pc := rfl
@[simp] theorem State.setToPd_w (s : State) (t p : Bool) : (s.setToPd t p).w = s.w := rfl
@[simp] theorem State.setToPd_flags (s : State) (t p : Bool) : (s.setToPd t p).flags = s.flags := rfl
@[simp] theorem State.setToPd_bsr (s : State) (t p : Bool) : (s.setToPd t p).bsr = s.bsr := rfl
@[simp] theorem State.setToPd_fsr0 (s : State) (t p : Bool) : (s.setToPd t p).fsr0 = s.fsr0 := rfl
@[simp] theorem State.setToPd_fsr1 (s : State) (t p : Bool) : (s.setToPd t p).fsr1 = s.fsr1 := rfl
@[simp] theorem State.setToPd_fsr2 (s : State) (t p : Bool) : (s.setToPd t p).fsr2 = s.fsr2 := rfl
@[simp] theorem State.setToPd_prodh (s : State) (t p : Bool) : (s.setToPd t p).prodh = s.prodh := rfl
@[simp] theorem State.setToPd_prodl (s : State) (t p : Bool) : (s.setToPd t p).prodl = s.prodl := rfl
@[simp] theorem State.setToPd_pclath (s : State) (t p : Bool) : (s.setToPd t p).pclath = s.pclath := rfl
@[simp] theorem State.setToPd_pclatu (s : State) (t p : Bool) : (s.setToPd t p).pclatu = s.pclatu := rfl
@[simp] theorem State.setToPd_stack (s : State) (t p : Bool) : (s.setToPd t p).stack = s.stack := rfl
@[simp] theorem State.setToPd_stkful (s : State) (t p : Bool) : (s.setToPd t p).stkful = s.stkful := rfl
@[simp] theorem State.setToPd_stkunf (s : State) (t p : Bool) : (s.setToPd t p).stkunf = s.stkunf := rfl
@[simp] theorem State.setToPd_ws (s : State) (t p : Bool) : (s.setToPd t p).ws = s.ws := rfl
@[simp] theorem State.setToPd_statuss (s : State) (t p : Bool) : (s.setToPd t p).statuss = s.statuss := rfl
@[simp] theorem State.setToPd_bsrs (s : State) (t p : Bool) : (s.setToPd t p).bsrs = s.bsrs := rfl
@[simp] theorem State.setToPd_tblptr (s : State) (t p : Bool) : (s.setToPd t p).tblptr = s.tblptr := rfl
@[simp] theorem State.setToPd_tablat (s : State) (t p : Bool) : (s.setToPd t p).tablat = s.tablat := rfl
@[simp] theorem State.setToPd_holding (s : State) (t p : Bool) : (s.setToPd t p).holding = s.holding := rfl
@[simp] theorem State.setToPd_intcon (s : State) (t p : Bool) : (s.setToPd t p).intcon = s.intcon := rfl
@[simp] theorem State.setToPd_rcon (s : State) (t p : Bool) :
    (s.setToPd t p).rcon = withBit (withBit s.rcon 3 t) 2 p := rfl
@[simp] theorem State.setToPd_wdt (s : State) (t p : Bool) : (s.setToPd t p).wdt = s.wdt := rfl
@[simp] theorem State.setToPd_wdtPost (s : State) (t p : Bool) : (s.setToPd t p).wdtPost = s.wdtPost := rfl
@[simp] theorem State.setToPd_asleep (s : State) (t p : Bool) : (s.setToPd t p).asleep = s.asleep := rfl
@[simp] theorem State.setToPd_ram (s : State) (t p : Bool) : (s.setToPd t p).ram = s.ram := rfl
@[simp] theorem State.setToPd_ramEpoch (s : State) (t p : Bool) : (s.setToPd t p).ramEpoch = s.ramEpoch := rfl
@[simp] theorem State.setToPd_draws (s : State) (t p : Bool) : (s.setToPd t p).draws = s.draws := rfl
@[simp] theorem State.setToPd_outputs (s : State) (t p : Bool) : (s.setToPd t p).outputs = s.outputs := rfl
@[simp] theorem State.setToPd_env (s : State) (t p : Bool) : (s.setToPd t p).env = s.env := rfl

/-! ### retfieEnable: INTCON alone -/

@[simp] theorem State.retfieEnable_cfg (s : State) :
    s.retfieEnable.cfg = s.cfg := by unfold State.retfieEnable; split <;> rfl
@[simp] theorem State.retfieEnable_prog (s : State) :
    s.retfieEnable.prog = s.prog := by unfold State.retfieEnable; split <;> rfl
@[simp] theorem State.retfieEnable_pc (s : State) :
    s.retfieEnable.pc = s.pc := by unfold State.retfieEnable; split <;> rfl
@[simp] theorem State.retfieEnable_w (s : State) :
    s.retfieEnable.w = s.w := by unfold State.retfieEnable; split <;> rfl
@[simp] theorem State.retfieEnable_flags (s : State) :
    s.retfieEnable.flags = s.flags := by unfold State.retfieEnable; split <;> rfl
@[simp] theorem State.retfieEnable_bsr (s : State) :
    s.retfieEnable.bsr = s.bsr := by unfold State.retfieEnable; split <;> rfl
@[simp] theorem State.retfieEnable_fsr0 (s : State) :
    s.retfieEnable.fsr0 = s.fsr0 := by unfold State.retfieEnable; split <;> rfl
@[simp] theorem State.retfieEnable_fsr1 (s : State) :
    s.retfieEnable.fsr1 = s.fsr1 := by unfold State.retfieEnable; split <;> rfl
@[simp] theorem State.retfieEnable_fsr2 (s : State) :
    s.retfieEnable.fsr2 = s.fsr2 := by unfold State.retfieEnable; split <;> rfl
@[simp] theorem State.retfieEnable_prodh (s : State) :
    s.retfieEnable.prodh = s.prodh := by unfold State.retfieEnable; split <;> rfl
@[simp] theorem State.retfieEnable_prodl (s : State) :
    s.retfieEnable.prodl = s.prodl := by unfold State.retfieEnable; split <;> rfl
@[simp] theorem State.retfieEnable_pclath (s : State) :
    s.retfieEnable.pclath = s.pclath := by unfold State.retfieEnable; split <;> rfl
@[simp] theorem State.retfieEnable_pclatu (s : State) :
    s.retfieEnable.pclatu = s.pclatu := by unfold State.retfieEnable; split <;> rfl
@[simp] theorem State.retfieEnable_stack (s : State) :
    s.retfieEnable.stack = s.stack := by unfold State.retfieEnable; split <;> rfl
@[simp] theorem State.retfieEnable_stkful (s : State) :
    s.retfieEnable.stkful = s.stkful := by unfold State.retfieEnable; split <;> rfl
@[simp] theorem State.retfieEnable_stkunf (s : State) :
    s.retfieEnable.stkunf = s.stkunf := by unfold State.retfieEnable; split <;> rfl
@[simp] theorem State.retfieEnable_ws (s : State) :
    s.retfieEnable.ws = s.ws := by unfold State.retfieEnable; split <;> rfl
@[simp] theorem State.retfieEnable_statuss (s : State) :
    s.retfieEnable.statuss = s.statuss := by unfold State.retfieEnable; split <;> rfl
@[simp] theorem State.retfieEnable_bsrs (s : State) :
    s.retfieEnable.bsrs = s.bsrs := by unfold State.retfieEnable; split <;> rfl
@[simp] theorem State.retfieEnable_tblptr (s : State) :
    s.retfieEnable.tblptr = s.tblptr := by unfold State.retfieEnable; split <;> rfl
@[simp] theorem State.retfieEnable_tablat (s : State) :
    s.retfieEnable.tablat = s.tablat := by unfold State.retfieEnable; split <;> rfl
@[simp] theorem State.retfieEnable_holding (s : State) :
    s.retfieEnable.holding = s.holding := by unfold State.retfieEnable; split <;> rfl
@[simp] theorem State.retfieEnable_rcon (s : State) :
    s.retfieEnable.rcon = s.rcon := by unfold State.retfieEnable; split <;> rfl
@[simp] theorem State.retfieEnable_wdt (s : State) :
    s.retfieEnable.wdt = s.wdt := by unfold State.retfieEnable; split <;> rfl
@[simp] theorem State.retfieEnable_wdtPost (s : State) :
    s.retfieEnable.wdtPost = s.wdtPost := by unfold State.retfieEnable; split <;> rfl
@[simp] theorem State.retfieEnable_asleep (s : State) :
    s.retfieEnable.asleep = s.asleep := by unfold State.retfieEnable; split <;> rfl
@[simp] theorem State.retfieEnable_ram (s : State) :
    s.retfieEnable.ram = s.ram := by unfold State.retfieEnable; split <;> rfl
@[simp] theorem State.retfieEnable_ramEpoch (s : State) :
    s.retfieEnable.ramEpoch = s.ramEpoch := by unfold State.retfieEnable; split <;> rfl
@[simp] theorem State.retfieEnable_draws (s : State) :
    s.retfieEnable.draws = s.draws := by unfold State.retfieEnable; split <;> rfl
@[simp] theorem State.retfieEnable_outputs (s : State) :
    s.retfieEnable.outputs = s.outputs := by unfold State.retfieEnable; split <;> rfl
@[simp] theorem State.retfieEnable_env (s : State) :
    s.retfieEnable.env = s.env := by unfold State.retfieEnable; split <;> rfl

/-! ### resetTo: every register by its entry (R282) -/

@[simp] theorem State.resetTo_cfg (s : State) (c : ResetColumn) : (s.resetTo c).cfg = s.cfg := rfl
@[simp] theorem State.resetTo_prog (s : State) (c : ResetColumn) : (s.resetTo c).prog = s.prog := rfl
@[simp] theorem State.resetTo_pc (s : State) (c : ResetColumn) :
    (s.resetTo c).pc = s.cfg.resetVector &&& 0x1FFFFE#21 := rfl
@[simp] theorem State.resetTo_w (s : State) (c : ResetColumn) :
    (s.resetTo c).w = c.w.load s.w (s.draws + 2) := rfl
@[simp] theorem State.resetTo_flags (s : State) (c : ResetColumn) :
    (s.resetTo c).flags = Flags.ofBits (c.status.load s.flags.bits (s.draws + 3)) := rfl
@[simp] theorem State.resetTo_bsr (s : State) (c : ResetColumn) :
    (s.resetTo c).bsr = c.bsr.load s.bsr (s.draws + 4) := rfl
@[simp] theorem State.resetTo_fsr0 (s : State) (c : ResetColumn) :
    (s.resetTo c).fsr0 = c.loadFsr s.fsr0 (s.draws + 5) := rfl
@[simp] theorem State.resetTo_fsr1 (s : State) (c : ResetColumn) :
    (s.resetTo c).fsr1 = c.loadFsr s.fsr1 (s.draws + 7) := rfl
@[simp] theorem State.resetTo_fsr2 (s : State) (c : ResetColumn) :
    (s.resetTo c).fsr2 = c.loadFsr s.fsr2 (s.draws + 9) := rfl
@[simp] theorem State.resetTo_prodh (s : State) (c : ResetColumn) :
    (s.resetTo c).prodh = c.prod.load s.prodh (s.draws + 11) := rfl
@[simp] theorem State.resetTo_prodl (s : State) (c : ResetColumn) :
    (s.resetTo c).prodl = c.prod.load s.prodl (s.draws + 12) := rfl
@[simp] theorem State.resetTo_pclath (s : State) (c : ResetColumn) :
    (s.resetTo c).pclath = c.pclath.load s.pclath (s.draws + 1) := rfl
@[simp] theorem State.resetTo_pclatu (s : State) (c : ResetColumn) :
    (s.resetTo c).pclatu = c.pclatu.load s.pclatu s.draws := rfl
@[simp] theorem State.resetTo_stack (s : State) (c : ResetColumn) : (s.resetTo c).stack = [] := rfl
@[simp] theorem State.resetTo_stkful (s : State) (c : ResetColumn) : (s.resetTo c).stkful = s.stkful := rfl
@[simp] theorem State.resetTo_stkunf (s : State) (c : ResetColumn) : (s.resetTo c).stkunf = s.stkunf := rfl
@[simp] theorem State.resetTo_ws (s : State) (c : ResetColumn) :
    (s.resetTo c).ws = c.shadow.load s.ws (s.draws + 20) := rfl
@[simp] theorem State.resetTo_statuss (s : State) (c : ResetColumn) :
    (s.resetTo c).statuss = c.shadow.load s.statuss (s.draws + 21) := rfl
@[simp] theorem State.resetTo_bsrs (s : State) (c : ResetColumn) :
    (s.resetTo c).bsrs = c.shadow.load s.bsrs (s.draws + 22) := rfl
@[simp] theorem State.resetTo_tblptr (s : State) (c : ResetColumn) :
    (s.resetTo c).tblptr = c.tblptr.load s.tblptr (s.draws + 13) := rfl
@[simp] theorem State.resetTo_tablat (s : State) (c : ResetColumn) :
    (s.resetTo c).tablat = c.tablat.load s.tablat (s.draws + 14) := rfl
@[simp] theorem State.resetTo_holding (s : State) (c : ResetColumn) :
    (s.resetTo c).holding = c.holding.loadAll s.holding (s.draws + 23) := rfl
@[simp] theorem State.resetTo_intcon (s : State) (c : ResetColumn) :
    (s.resetTo c).intcon = withBit (withBit s.intcon 7 (c.gieh.loadBit s.gieh (s.draws + 15))) 6
      (c.giel.loadBit s.giel (s.draws + 16)) := rfl
@[simp] theorem State.resetTo_rcon (s : State) (c : ResetColumn) :
    (s.resetTo c).rcon = withBit (withBit (withBit s.rcon 7 (c.ipen.loadBit s.ipen (s.draws + 17))) 3
      (c.timeOut.loadBit (s.rcon.getLsbD 3) (s.draws + 18))) 2
      (c.powerDown.loadBit (s.rcon.getLsbD 2) (s.draws + 19)) := rfl
@[simp] theorem State.resetTo_wdt (s : State) (c : ResetColumn) : (s.resetTo c).wdt = 0 := rfl
@[simp] theorem State.resetTo_wdtPost (s : State) (c : ResetColumn) : (s.resetTo c).wdtPost = 0 := rfl
@[simp] theorem State.resetTo_asleep (s : State) (c : ResetColumn) : (s.resetTo c).asleep = false := rfl
@[simp] theorem State.resetTo_ram (s : State) (c : ResetColumn) : (s.resetTo c).ram = s.ram := rfl
@[simp] theorem State.resetTo_ramEpoch (s : State) (c : ResetColumn) :
    (s.resetTo c).ramEpoch = s.ramEpoch := rfl
@[simp] theorem State.resetTo_draws (s : State) (c : ResetColumn) :
    (s.resetTo c).draws = s.draws + 23 + s.holding.length := rfl
@[simp] theorem State.resetTo_outputs (s : State) (c : ResetColumn) : (s.resetTo c).outputs = s.outputs := rfl
@[simp] theorem State.resetTo_env (s : State) (c : ResetColumn) : (s.resetTo c).env = s.env := rfl

end Sys2Proof.Machine
end

