-- ==== Sys2Proof/Laws/Ops.lean ====
section
/-! SUPPORT. One lemma per shared operation that says all it can do: cited instead of unfolding it. -/

namespace Sys2Proof.Machine

/-! ### Outcomes -/

@[simp] theorem outcome_ok (s : State) : outcome (.ok s) = .next s := rfl

@[simp] theorem outcome_error (e : Fault) : outcome (.error e) = .fault e := rfl

theorem outcome_eq_next (r : Except Fault State) (t : State) : outcome r = .next t ↔ r = .ok t := by
  cases r <;> simp [outcome]

theorem outcome_eq_fault (r : Except Fault State) (e : Fault) : outcome r = .fault e ↔ r = .error e := by
  cases r <;> simp [outcome]

/-! ### Program counter -/

/-- PC[0] = 0 always (R27). -/
@[simp] theorem State.setPc_even (s : State) (a : ProgAddr) : (s.setPc a).pc.getLsbD 0 = false := by
  simp [State.setPc]

@[simp] theorem State.advance_even (s : State) (n : ProgAddr) : (s.advance n).pc.getLsbD 0 = false :=
  s.setPc_even _

/-- Dropping bit 0 of an even address changes nothing. -/
theorem and_even (a : ProgAddr) (h : a.getLsbD 0 = false) : a &&& 0x1FFFFE#21 = a := by
  ext i hi
  by_cases h0 : i = 0
  · subst h0; simpa [BitVec.getLsbD_eq_getElem] using h
  · have : (0x1FFFFE#21).getLsbD i = true := by
      have : ∀ j : Fin 21, j.val ≠ 0 → (0x1FFFFE#21).getLsbD j.val = true := by decide
      exact this ⟨i, hi⟩ h0
    rw [BitVec.getLsbD_eq_getElem hi] at this
    simp [this]

/-- What dropping bit 0 leaves. -/
theorem and_mask (a : ProgAddr) : a &&& 0x1FFFFE#21 = a.extractLsb' 1 20 ++ 0#1 := by
  apply BitVec.eq_of_getLsbD_eq
  intro i hi
  have hm : ∀ j : Fin 21, (0x1FFFFE#21).getLsbD j.val = decide (j.val ≠ 0) := by decide
  rw [BitVec.getLsbD_and, hm ⟨i, hi⟩, BitVec.getLsbD_append]
  by_cases h0 : i = 0
  · simp [h0]
  · have h1 : ¬ i < 1 := by omega
    have h2 : i - 1 < 20 := by omega
    have h3 : 1 + (i - 1) = i := by omega
    simp [h0, h2, h3]

theorem even_add (a b : ProgAddr) (ha : a.getLsbD 0 = false) (hb : b.getLsbD 0 = false) :
    (a + b).getLsbD 0 = false := by
  have h (x : ProgAddr) : x.getLsbD 0 = false ↔ x.toNat % 2 = 0 := by
    rw [BitVec.getLsbD, Nat.testBit_zero]; simp
  rw [h] at *
  rw [BitVec.toNat_add]; omega

theorem State.setPc_of_even (s : State) (a : ProgAddr) (h : a.getLsbD 0 = false) :
    s.setPc a = { s with pc := a } := by
  rw [State.setPc, and_even a h]

theorem State.advance_of_even (s : State) (n : ProgAddr) (h : s.pc.getLsbD 0 = false)
    (hn : n.getLsbD 0 = false) : s.advance n = { s with pc := s.pc + n } :=
  s.setPc_of_even _ (even_add _ _ h hn)

/-! ### Return stack -/

theorem State.push_eq_ok (s t : State) (v : ProgAddr) :
    s.push v = .ok t ↔ s.stack.length < s.cfg.stackDepth ∧ t = { s with stack := v :: s.stack } := by
  unfold State.push
  split_ifs with h <;> simp [h, eq_comm]

theorem State.push_eq_error (s : State) (v : ProgAddr) (e : Fault) :
    s.push v = .error e ↔ s.cfg.stackDepth ≤ s.stack.length ∧ e = .stackOverflow s.pc := by
  unfold State.push
  split_ifs with h
  · simp; omega
  · simp [Nat.le_of_not_lt h, eq_comm]

theorem State.pop_eq_ok (s t : State) (v : ProgAddr) :
    s.pop = .ok (v, t) ↔ ∃ rest, s.stack = v :: rest ∧ t = { s with stack := rest } := by
  unfold State.pop
  cases h : s.stack with
  | nil => simp
  | cons u rest =>
    constructor
    · intro hp
      simp only [Except.ok.injEq, Prod.mk.injEq] at hp
      exact ⟨rest, by rw [hp.1], hp.2.symm⟩
    · rintro ⟨r, hr, rfl⟩
      simp only [List.cons.injEq] at hr
      rw [hr.1, hr.2]

theorem State.pop_eq_error (s : State) (e : Fault) :
    s.pop = .error e ↔ s.stack = [] ∧ e = .stackUnderflow s.pc := by
  unfold State.pop
  split <;> simp_all [eq_comm]

theorem State.popPc_eq_ok (s t : State) :
    s.popPc = .ok t ↔ ∃ v rest, s.stack = v :: rest ∧ t = { s with stack := rest }.setPc v := by
  unfold State.popPc
  split
  · next e h => rw [State.pop_eq_error] at h; simp [h.1]
  · next v s1 h =>
    obtain ⟨rest, hs, rfl⟩ := (State.pop_eq_ok s s1 v).1 h
    simp only [Except.ok.injEq, hs, List.cons.injEq]
    constructor
    · rintro rfl; exact ⟨v, rest, ⟨rfl, rfl⟩, rfl⟩
    · rintro ⟨v', r', ⟨rfl, rfl⟩, rfl⟩; rfl

theorem State.popPc_eq_error (s : State) (e : Fault) :
    s.popPc = .error e ↔ s.stack = [] ∧ e = .stackUnderflow s.pc := by
  unfold State.popPc State.pop
  cases h : s.stack <;> simp [eq_comm]

/-! ### Skips -/

/-- A skip moves the PC by one, two or three words and changes nothing else. -/
theorem State.skipIf_eq_ok (s t : State) (c : Bool) (h : s.skipIf c = .ok t) :
    t = s.advance 2#21 ∨ t = s.advance 4#21 ∨ t = s.advance 6#21 := by
  unfold State.skipIf at h
  split at h
  · split_ifs at h
    cases h; exact .inl rfl
  · cases h
    cases c
    · exact .inl rfl
    · split_ifs
      · exact .inr (.inr rfl)
      · exact .inr (.inl rfl)
      · contradiction

/-- The end of a skip instruction, from the state `t` with its other effects, in the words of `skipsFrom`. -/
theorem State.skipIf_spec (s t : State) (c : Bool) (hpc : t.pc = s.pc) (hcfg : t.cfg = s.cfg)
    (hprog : t.prog = s.prog) : skipsFrom s t c (outcome (t.skipIf c)) := by
  have hf : t.fetchWord (t.pc + 2#21) = s.fetchWord (s.pc + 2#21) := by
    simp [State.fetchWord, State.progByte, hpc, hcfg, hprog]
  unfold skipsFrom State.skipIf
  rw [hf]
  refine ⟨?_, ?_, ?_⟩
  · rintro rfl; split <;> simp
  · rintro rfl w2 h; simp [h, hcfg]
  · rintro rfl h; simp [h, hpc]

/-! ### Tables -/

theorem State.tableRead_eq_ok (s t : State) :
    s.tableRead = .ok t ↔ s.tblptr.toNat < s.cfg.progBytes ∧ t = { s with tablat := s.progByte s.tblptr } := by
  unfold State.tableRead
  split_ifs with h <;> simp [h, eq_comm]

theorem State.tableRead_eq_error (s : State) (e : Fault) :
    s.tableRead = .error e ↔ s.cfg.progBytes ≤ s.tblptr.toNat ∧ e = .tableReadOutOfRange s.tblptr := by
  unfold State.tableRead
  split_ifs with h
  · simp; omega
  · simp [Nat.le_of_not_lt h, eq_comm]

/-! ### Interrupt entry and return -/

theorem State.interruptEntry_eq_ok (s t : State) (level : IrqLevel) :
    s.interruptEntry level = .ok t ↔ s.stack.length < s.cfg.stackDepth ∧ t = { s with
      stack := s.pc :: s.stack
      ws := s.w
      statuss := s.flags.toByte s.cfg.statusLayout
      bsrs := s.bsr.setWidth 8
      intcon := if s.asHigh level then withBit s.intcon 7 false else withBit s.intcon 6 false
      pc := (if s.asHigh level then s.cfg.highVector else s.cfg.lowVector) &&& 0x1FFFFE#21
      asleep := false } := by
  unfold State.interruptEntry
  split
  · next e h =>
    rw [State.push_eq_error] at h
    simp [Nat.not_lt.2 h.1]
  · next s1 h =>
    obtain ⟨hl, rfl⟩ := (s.push_eq_ok s1 s.pc).1 h
    obtain ⟨b, hb⟩ : ∃ b, s.asHigh level = b := ⟨_, rfl⟩
    simp only [hl, true_and, Except.ok.injEq, hb]
    cases b <;> exact ⟨fun h => h.symm, fun h => h.symm⟩

theorem State.interruptEntry_eq_error (s : State) (level : IrqLevel) (e : Fault) :
    s.interruptEntry level = .error e ↔ s.cfg.stackDepth ≤ s.stack.length ∧ e = .stackOverflow s.pc := by
  unfold State.interruptEntry
  split
  · next e' h => rw [State.push_eq_error] at h; simp [h.1, h.2, eq_comm]
  · next s1 h => simp [Nat.not_le.2 ((s.push_eq_ok s1 s.pc).1 h).1]

theorem State.interruptReturn_eq_ok (s t : State) (fast : Bool) :
    s.interruptReturn fast = .ok t ↔ ∃ v rest, s.stack = v :: rest
      ∧ t = (({ s with stack := rest }.setPc v).retfieEnable).restoreFast fast := by
  unfold State.interruptReturn
  split
  · next e h => rw [State.popPc_eq_error] at h; simp [h.1]
  · next s1 h =>
    obtain ⟨v, rest, hs, rfl⟩ := (s.popPc_eq_ok s1).1 h
    simp only [Except.ok.injEq, hs, List.cons.injEq]
    constructor
    · rintro rfl; exact ⟨v, rest, ⟨rfl, rfl⟩, rfl⟩
    · rintro ⟨v', r', ⟨rfl, rfl⟩, rfl⟩; rfl

/-! ### Fetch, events and the step -/

/-- What a fetched instruction is: what the bytes at the PC decode to. -/
theorem State.fetch_eq_ok (s : State) (i : Instr) :
    s.fetch = .ok i ↔ ∃ rest, decode s.cfg.xinst s.fetchBytes = .ok (i, rest) := by
  unfold State.fetch
  split <;> simp_all

/-- What acting upon an event can do. -/
theorem State.takeBoundary_eq_ok (s t : State) (b : Boundary) (h : s.takeBoundary b = .ok t) :
    (∃ kind, b = .reset kind ∧ t = { s.resetBy kind with env := Env.none })
      ∨ (b = .wdtTimeout ∧ s.asleep = true
          ∧ t = { s.wdtTimeout with env := { s.env with wdtTimeout := false } })
      ∨ (b = .wdtTimeout ∧ s.asleep = false ∧ t = { s.wdtTimeout with env := Env.none })
      ∨ (b = .irq .high ∧ { s with env := { s.env with irqHigh := none } }.interruptEntry .high = .ok t)
      ∨ (b = .irq .low ∧ { s with env := { s.env with irqLow := none } }.interruptEntry .low = .ok t)
      ∨ (b = .wake ∧ t = { s with asleep := false }) := by
  unfold State.takeBoundary at h
  split at h
  · cases h; exact .inl ⟨_, rfl, rfl⟩
  · split_ifs at h with ha
    · cases h; exact .inr (.inl ⟨rfl, ha, rfl⟩)
    · cases h; exact .inr (.inr (.inl ⟨rfl, by simpa using ha, rfl⟩))
  · exact .inr (.inr (.inr (.inl ⟨rfl, h⟩)))
  · exact .inr (.inr (.inr (.inr (.inl ⟨rfl, h⟩))))
  · cases h; exact .inr (.inr (.inr (.inr (.inr ⟨rfl, rfl⟩))))

/-- Everything a step can do. -/
theorem step_eq_next (s t : State) (h : step s = .next t) :
    (∃ b, s.boundary = some b ∧ s.takeBoundary b = .ok t)
      ∨ (s.boundary = none ∧ s.asleep = true ∧ t = s)
      ∨ (s.running ∧ ∃ i, s.fetch = .ok i ∧ exec i s = .next t) := by
  unfold step at h
  split at h
  · next b hb => exact .inl ⟨b, hb, (outcome_eq_next _ _).1 h⟩
  · next hb =>
    split_ifs at h with ha
    · cases h; exact .inr (.inl ⟨hb, ha, rfl⟩)
    · split at h
      · next i hi => exact .inr (.inr ⟨⟨hb, by simpa using ha⟩, i, hi, h⟩)
      · cases h

/-- A running machine runs what it fetches. -/
theorem step_of_fetch (s : State) (i : Instr) (hr : s.running) (h : s.fetch = .ok i) : step s = exec i s := by
  simp [step, hr.1, hr.2, h]

end Sys2Proof.Machine
end

