-- ==== Sys2Proof/Laws/Operands.lean ====
section
/-! SUPPORT. The shared operations of data memory and of the instruction shapes built on them: when each
answers a next state, and which. -/

namespace Sys2Proof.Machine

/-! ### The register map -/

theorem sfrAt_eq_some (cfg : Config) (addr : DataAddr) (r : Sfr) :
    sfrAt cfg addr = some r ↔ regAt cfg.sfrMap addr = some (.core r) := by
  unfold sfrAt
  split <;> simp_all

theorem indirectAt_eq_some (cfg : Config) (addr : DataAddr) (n : Fsr) (mode : IndirectMode) :
    indirectAt cfg addr = some (n, mode) ↔ regAt cfg.sfrMap addr = some (.indirect n mode) := by
  unfold indirectAt
  split <;> simp_all

/-- An address is mapped to a core register, to an indirect addressing register, or to nothing. -/
theorem regAt_cases (cfg : Config) (addr : DataAddr) :
    (∃ r, sfrAt cfg addr = some r ∧ indirectAt cfg addr = none ∧ placeAt cfg addr = .sfr r)
      ∨ (∃ q, indirectAt cfg addr = some q ∧ sfrAt cfg addr = none ∧ placeAt cfg addr = .nowhere)
      ∨ (sfrAt cfg addr = none ∧ indirectAt cfg addr = none
        ∧ placeAt cfg addr = if ramAt cfg addr then .ram addr
          else if 0xF80 ≤ addr.toNat then .peripheral addr else .unimplemented addr) := by
  unfold sfrAt indirectAt placeAt
  cases regAt cfg.sfrMap addr with
  | none => exact .inr (.inr ⟨rfl, rfl, rfl⟩)
  | some q =>
    cases q with
    | core r => exact .inl ⟨r, rfl, rfl, rfl⟩
    | indirect n m => exact .inr (.inl ⟨(n, m), rfl, rfl, rfl⟩)

theorem ramAt_iff (cfg : Config) (addr : DataAddr) :
    ramAt cfg addr = true ↔ ∃ g ∈ cfg.ramImplemented, g.first.toNat ≤ addr.toNat ∧ addr.toNat ≤ g.last.toNat := by
  simp [ramAt]

/-- Where a place that is RAM or a peripheral address lies. -/
theorem placeAt_bounds (cfg : Config) (addr b : DataAddr) :
    (placeAt cfg addr = .ram b → b = addr ∧ ramAt cfg addr = true)
      ∧ (placeAt cfg addr = .peripheral b → b = addr ∧ 0xF80 ≤ addr.toNat) := by
  obtain ⟨r, -, -, h⟩ | ⟨q, -, -, h⟩ | ⟨-, -, h⟩ := regAt_cases cfg addr
  · simp [h]
  · simp [h]
  · rw [h]
    split_ifs with h1 h2
    · exact ⟨fun h => by cases h; exact ⟨rfl, h1⟩, nofun⟩
    · exact ⟨nofun, fun h => by cases h; exact ⟨rfl, h2⟩⟩
    · exact ⟨nofun, nofun⟩

/-! ### Addressing changes one FSR at most -/

theorem State.resolve_state (s : State) (addr : DataAddr) : ∃ n v, (s.resolve addr).2 = s.setFsr n v := by
  unfold State.resolve
  split
  · exact ⟨.fsr0, s.fsr0, rfl⟩
  · exact ⟨_, _, rfl⟩

theorem State.operand_state (s : State) (f : Byte) (a : Access) :
    ∃ n v, (s.operand f a).2 = s.setFsr n v := by
  unfold State.operand
  split_ifs
  · exact ⟨.fsr0, s.fsr0, rfl⟩
  · exact s.resolve_state _

/-- The place an address resolves to is that of some address, not resolved again. -/
theorem State.resolve_place (s : State) (addr : DataAddr) : ∃ b, (s.resolve addr).1 = placeAt s.cfg b := by
  unfold State.resolve
  split <;> exact ⟨_, rfl⟩

theorem State.operand_place (s : State) (f : Byte) (a : Access) :
    ∃ b, (s.operand f a).1 = placeAt s.cfg b := by
  unfold State.operand
  split_ifs
  · exact ⟨_, rfl⟩
  · exact s.resolve_place _

/-! ### Reading and writing a place -/

theorem State.readPlace_eq_ok (s t : State) (p : Place) (v : Byte) :
    s.readPlace p = .ok (v, t) ↔ p.readable = true ∧ v = s.valueAt p ∧ t = s.afterRead p := by
  cases p <;> simp [State.readPlace, Place.readable, eq_comm]

theorem State.readPlace_of_readable (s : State) (p : Place) (h : p.readable = true) :
    s.readPlace p = .ok (s.valueAt p, s.afterRead p) :=
  (s.readPlace_eq_ok _ p _).2 ⟨h, rfl, rfl⟩

theorem State.readPlace_eq_error (s : State) (p : Place) (e : Fault) :
    s.readPlace p = .error e ↔ ∃ addr, p = .unimplemented addr ∧ e = .unimplementedData addr := by
  cases p <;> simp [State.readPlace, eq_comm]

theorem State.writePlace_eq_ok (s t : State) (p : Place) (v : Byte) :
    s.writePlace p v = .ok t ↔ p.writable = true ∧ t = s.afterWrite v p := by
  cases p with
  | sfr r => cases r <;> simp [State.writePlace, Place.writable, eq_comm]
  | _ => simp [State.writePlace, Place.writable, eq_comm]

theorem State.writePlace_of_writable (s : State) (p : Place) (v : Byte) (h : p.writable = true) :
    s.writePlace p v = .ok (s.afterWrite v p) :=
  (s.writePlace_eq_ok _ p v).2 ⟨h, rfl⟩

theorem State.writePlace_eq_error (s : State) (p : Place) (v : Byte) (e : Fault) :
    s.writePlace p v = .error e ↔
      (∃ addr, p = .unimplemented addr ∧ e = .unimplementedData addr)
        ∨ (p = .sfr .stkptr ∧ e = .unsupportedStackPointerWrite) := by
  cases p with
  | sfr r => cases r <;> simp [State.writePlace, eq_comm]
  | _ => simp [State.writePlace, eq_comm]

theorem State.writeDest_eq_ok (s t : State) (d : Dest) (p : Place) (v : Byte) :
    s.writeDest d p v = .ok t ↔ destWritable d p ∧ t = s.afterDest d p v := by
  cases d
  · simp only [State.writeDest, destWritable, State.afterDest, Except.ok.injEq, reduceCtorEq, false_implies, true_and]
    exact eq_comm
  · simpa [State.writeDest, destWritable, State.afterDest] using s.writePlace_eq_ok t p v

theorem State.writeDest_of_writable (s : State) (d : Dest) (p : Place) (v : Byte) (h : destWritable d p) :
    s.writeDest d p v = .ok (s.afterDest d p v) :=
  (s.writeDest_eq_ok _ d p v).2 ⟨h, rfl⟩

/-! ### What an operand read leaves alone -/

/-- A read changes PCLATH, PCLATU (from PCL) and the model's count of draws (from a peripheral), no more. -/
theorem State.afterRead_eq (s : State) (p : Place) : ∃ (h : Byte) (u : BitVec 5) (n : Nat),
    s.afterRead p = { s with pclath := h, pclatu := u, draws := n } := by
  cases p with
  | sfr r => cases r <;> exact ⟨_, _, _, rfl⟩
  | _ => exact ⟨_, _, _, rfl⟩

/-- Addressing and reading an operand changes one FSR at most, PCLATH, PCLATU and the count of draws. -/
theorem State.afterOperandRead_eq (s : State) (f : Byte) (a : Access) :
    ∃ (n : Fsr) (v : DataAddr) (h : Byte) (u : BitVec 5) (k : Nat),
      s.afterOperandRead f a = { s.setFsr n v with pclath := h, pclatu := u, draws := k } := by
  obtain ⟨n, v, hs⟩ := s.operand_state f a
  obtain ⟨h, u, k, hr⟩ := (s.setFsr n v).afterRead_eq (s.operand f a).1
  exact ⟨n, v, h, u, k, by rw [State.afterOperandRead, hs, hr]⟩

@[simp] theorem State.afterRead_cfg (s : State) (p : Place) : (s.afterRead p).cfg = s.cfg := by
  obtain ⟨_, _, _, h⟩ := s.afterRead_eq p; rw [h]

@[simp] theorem State.afterRead_prog (s : State) (p : Place) : (s.afterRead p).prog = s.prog := by
  obtain ⟨_, _, _, h⟩ := s.afterRead_eq p; rw [h]

@[simp] theorem State.afterRead_pc (s : State) (p : Place) : (s.afterRead p).pc = s.pc := by
  obtain ⟨_, _, _, h⟩ := s.afterRead_eq p; rw [h]

@[simp] theorem State.afterRead_w (s : State) (p : Place) : (s.afterRead p).w = s.w := by
  obtain ⟨_, _, _, h⟩ := s.afterRead_eq p; rw [h]

@[simp] theorem State.afterRead_flags (s : State) (p : Place) : (s.afterRead p).flags = s.flags := by
  obtain ⟨_, _, _, h⟩ := s.afterRead_eq p; rw [h]

@[simp] theorem State.afterRead_bsr (s : State) (p : Place) : (s.afterRead p).bsr = s.bsr := by
  obtain ⟨_, _, _, h⟩ := s.afterRead_eq p; rw [h]

@[simp] theorem State.afterRead_prodh (s : State) (p : Place) : (s.afterRead p).prodh = s.prodh := by
  obtain ⟨_, _, _, h⟩ := s.afterRead_eq p; rw [h]

@[simp] theorem State.afterRead_prodl (s : State) (p : Place) : (s.afterRead p).prodl = s.prodl := by
  obtain ⟨_, _, _, h⟩ := s.afterRead_eq p; rw [h]

@[simp] theorem State.afterRead_stack (s : State) (p : Place) : (s.afterRead p).stack = s.stack := by
  obtain ⟨_, _, _, h⟩ := s.afterRead_eq p; rw [h]

@[simp] theorem State.afterRead_stkful (s : State) (p : Place) : (s.afterRead p).stkful = s.stkful := by
  obtain ⟨_, _, _, h⟩ := s.afterRead_eq p; rw [h]

@[simp] theorem State.afterRead_stkunf (s : State) (p : Place) : (s.afterRead p).stkunf = s.stkunf := by
  obtain ⟨_, _, _, h⟩ := s.afterRead_eq p; rw [h]

@[simp] theorem State.afterRead_ws (s : State) (p : Place) : (s.afterRead p).ws = s.ws := by
  obtain ⟨_, _, _, h⟩ := s.afterRead_eq p; rw [h]

@[simp] theorem State.afterRead_statuss (s : State) (p : Place) : (s.afterRead p).statuss = s.statuss := by
  obtain ⟨_, _, _, h⟩ := s.afterRead_eq p; rw [h]

@[simp] theorem State.afterRead_bsrs (s : State) (p : Place) : (s.afterRead p).bsrs = s.bsrs := by
  obtain ⟨_, _, _, h⟩ := s.afterRead_eq p; rw [h]

@[simp] theorem State.afterRead_tblptr (s : State) (p : Place) : (s.afterRead p).tblptr = s.tblptr := by
  obtain ⟨_, _, _, h⟩ := s.afterRead_eq p; rw [h]

@[simp] theorem State.afterRead_tablat (s : State) (p : Place) : (s.afterRead p).tablat = s.tablat := by
  obtain ⟨_, _, _, h⟩ := s.afterRead_eq p; rw [h]

@[simp] theorem State.afterRead_holding (s : State) (p : Place) : (s.afterRead p).holding = s.holding := by
  obtain ⟨_, _, _, h⟩ := s.afterRead_eq p; rw [h]

@[simp] theorem State.afterRead_intcon (s : State) (p : Place) : (s.afterRead p).intcon = s.intcon := by
  obtain ⟨_, _, _, h⟩ := s.afterRead_eq p; rw [h]

@[simp] theorem State.afterRead_rcon (s : State) (p : Place) : (s.afterRead p).rcon = s.rcon := by
  obtain ⟨_, _, _, h⟩ := s.afterRead_eq p; rw [h]

@[simp] theorem State.afterRead_wdt (s : State) (p : Place) : (s.afterRead p).wdt = s.wdt := by
  obtain ⟨_, _, _, h⟩ := s.afterRead_eq p; rw [h]

@[simp] theorem State.afterRead_wdtPost (s : State) (p : Place) : (s.afterRead p).wdtPost = s.wdtPost := by
  obtain ⟨_, _, _, h⟩ := s.afterRead_eq p; rw [h]

@[simp] theorem State.afterRead_asleep (s : State) (p : Place) : (s.afterRead p).asleep = s.asleep := by
  obtain ⟨_, _, _, h⟩ := s.afterRead_eq p; rw [h]

@[simp] theorem State.afterRead_ram (s : State) (p : Place) : (s.afterRead p).ram = s.ram := by
  obtain ⟨_, _, _, h⟩ := s.afterRead_eq p; rw [h]

@[simp] theorem State.afterRead_ramEpoch (s : State) (p : Place) : (s.afterRead p).ramEpoch = s.ramEpoch := by
  obtain ⟨_, _, _, h⟩ := s.afterRead_eq p; rw [h]

@[simp] theorem State.afterRead_outputs (s : State) (p : Place) : (s.afterRead p).outputs = s.outputs := by
  obtain ⟨_, _, _, h⟩ := s.afterRead_eq p; rw [h]

@[simp] theorem State.afterRead_env (s : State) (p : Place) : (s.afterRead p).env = s.env := by
  obtain ⟨_, _, _, h⟩ := s.afterRead_eq p; rw [h]

@[simp] theorem State.afterOperandRead_cfg (s : State) (f : Byte) (a : Access) :
    (s.afterOperandRead f a).cfg = s.cfg := by
  obtain ⟨_, _, _, _, _, h⟩ := s.afterOperandRead_eq f a; simp [h]

@[simp] theorem State.afterOperandRead_prog (s : State) (f : Byte) (a : Access) :
    (s.afterOperandRead f a).prog = s.prog := by
  obtain ⟨_, _, _, _, _, h⟩ := s.afterOperandRead_eq f a; simp [h]

@[simp] theorem State.afterOperandRead_pc (s : State) (f : Byte) (a : Access) :
    (s.afterOperandRead f a).pc = s.pc := by
  obtain ⟨_, _, _, _, _, h⟩ := s.afterOperandRead_eq f a; simp [h]

@[simp] theorem State.afterOperandRead_w (s : State) (f : Byte) (a : Access) :
    (s.afterOperandRead f a).w = s.w := by
  obtain ⟨_, _, _, _, _, h⟩ := s.afterOperandRead_eq f a; simp [h]

@[simp] theorem State.afterOperandRead_flags (s : State) (f : Byte) (a : Access) :
    (s.afterOperandRead f a).flags = s.flags := by
  obtain ⟨_, _, _, _, _, h⟩ := s.afterOperandRead_eq f a; simp [h]

@[simp] theorem State.afterOperandRead_bsr (s : State) (f : Byte) (a : Access) :
    (s.afterOperandRead f a).bsr = s.bsr := by
  obtain ⟨_, _, _, _, _, h⟩ := s.afterOperandRead_eq f a; simp [h]

@[simp] theorem State.afterOperandRead_prodh (s : State) (f : Byte) (a : Access) :
    (s.afterOperandRead f a).prodh = s.prodh := by
  obtain ⟨_, _, _, _, _, h⟩ := s.afterOperandRead_eq f a; simp [h]

@[simp] theorem State.afterOperandRead_prodl (s : State) (f : Byte) (a : Access) :
    (s.afterOperandRead f a).prodl = s.prodl := by
  obtain ⟨_, _, _, _, _, h⟩ := s.afterOperandRead_eq f a; simp [h]

@[simp] theorem State.afterOperandRead_stack (s : State) (f : Byte) (a : Access) :
    (s.afterOperandRead f a).stack = s.stack := by
  obtain ⟨_, _, _, _, _, h⟩ := s.afterOperandRead_eq f a; simp [h]

@[simp] theorem State.afterOperandRead_stkful (s : State) (f : Byte) (a : Access) :
    (s.afterOperandRead f a).stkful = s.stkful := by
  obtain ⟨_, _, _, _, _, h⟩ := s.afterOperandRead_eq f a; simp [h]

@[simp] theorem State.afterOperandRead_stkunf (s : State) (f : Byte) (a : Access) :
    (s.afterOperandRead f a).stkunf = s.stkunf := by
  obtain ⟨_, _, _, _, _, h⟩ := s.afterOperandRead_eq f a; simp [h]

@[simp] theorem State.afterOperandRead_ws (s : State) (f : Byte) (a : Access) :
    (s.afterOperandRead f a).ws = s.ws := by
  obtain ⟨_, _, _, _, _, h⟩ := s.afterOperandRead_eq f a; simp [h]

@[simp] theorem State.afterOperandRead_statuss (s : State) (f : Byte) (a : Access) :
    (s.afterOperandRead f a).statuss = s.statuss := by
  obtain ⟨_, _, _, _, _, h⟩ := s.afterOperandRead_eq f a; simp [h]

@[simp] theorem State.afterOperandRead_bsrs (s : State) (f : Byte) (a : Access) :
    (s.afterOperandRead f a).bsrs = s.bsrs := by
  obtain ⟨_, _, _, _, _, h⟩ := s.afterOperandRead_eq f a; simp [h]

@[simp] theorem State.afterOperandRead_tblptr (s : State) (f : Byte) (a : Access) :
    (s.afterOperandRead f a).tblptr = s.tblptr := by
  obtain ⟨_, _, _, _, _, h⟩ := s.afterOperandRead_eq f a; simp [h]

@[simp] theorem State.afterOperandRead_tablat (s : State) (f : Byte) (a : Access) :
    (s.afterOperandRead f a).tablat = s.tablat := by
  obtain ⟨_, _, _, _, _, h⟩ := s.afterOperandRead_eq f a; simp [h]

@[simp] theorem State.afterOperandRead_holding (s : State) (f : Byte) (a : Access) :
    (s.afterOperandRead f a).holding = s.holding := by
  obtain ⟨_, _, _, _, _, h⟩ := s.afterOperandRead_eq f a; simp [h]

@[simp] theorem State.afterOperandRead_intcon (s : State) (f : Byte) (a : Access) :
    (s.afterOperandRead f a).intcon = s.intcon := by
  obtain ⟨_, _, _, _, _, h⟩ := s.afterOperandRead_eq f a; simp [h]

@[simp] theorem State.afterOperandRead_rcon (s : State) (f : Byte) (a : Access) :
    (s.afterOperandRead f a).rcon = s.rcon := by
  obtain ⟨_, _, _, _, _, h⟩ := s.afterOperandRead_eq f a; simp [h]

@[simp] theorem State.afterOperandRead_wdt (s : State) (f : Byte) (a : Access) :
    (s.afterOperandRead f a).wdt = s.wdt := by
  obtain ⟨_, _, _, _, _, h⟩ := s.afterOperandRead_eq f a; simp [h]

@[simp] theorem State.afterOperandRead_wdtPost (s : State) (f : Byte) (a : Access) :
    (s.afterOperandRead f a).wdtPost = s.wdtPost := by
  obtain ⟨_, _, _, _, _, h⟩ := s.afterOperandRead_eq f a; simp [h]

@[simp] theorem State.afterOperandRead_asleep (s : State) (f : Byte) (a : Access) :
    (s.afterOperandRead f a).asleep = s.asleep := by
  obtain ⟨_, _, _, _, _, h⟩ := s.afterOperandRead_eq f a; simp [h]

@[simp] theorem State.afterOperandRead_ram (s : State) (f : Byte) (a : Access) :
    (s.afterOperandRead f a).ram = s.ram := by
  obtain ⟨_, _, _, _, _, h⟩ := s.afterOperandRead_eq f a; simp [h]

@[simp] theorem State.afterOperandRead_ramEpoch (s : State) (f : Byte) (a : Access) :
    (s.afterOperandRead f a).ramEpoch = s.ramEpoch := by
  obtain ⟨_, _, _, _, _, h⟩ := s.afterOperandRead_eq f a; simp [h]

@[simp] theorem State.afterOperandRead_outputs (s : State) (f : Byte) (a : Access) :
    (s.afterOperandRead f a).outputs = s.outputs := by
  obtain ⟨_, _, _, _, _, h⟩ := s.afterOperandRead_eq f a; simp [h]

@[simp] theorem State.afterOperandRead_env (s : State) (f : Byte) (a : Access) :
    (s.afterOperandRead f a).env = s.env := by
  obtain ⟨_, _, _, _, _, h⟩ := s.afterOperandRead_eq f a; simp [h]

@[simp] theorem State.resolve_cfg (s : State) (addr : DataAddr) : (s.resolve addr).2.cfg = s.cfg := by
  obtain ⟨_, _, h⟩ := s.resolve_state addr; simp [h]

@[simp] theorem State.resolve_prog (s : State) (addr : DataAddr) : (s.resolve addr).2.prog = s.prog := by
  obtain ⟨_, _, h⟩ := s.resolve_state addr; simp [h]

@[simp] theorem State.resolve_pc (s : State) (addr : DataAddr) : (s.resolve addr).2.pc = s.pc := by
  obtain ⟨_, _, h⟩ := s.resolve_state addr; simp [h]

@[simp] theorem State.resolve_w (s : State) (addr : DataAddr) : (s.resolve addr).2.w = s.w := by
  obtain ⟨_, _, h⟩ := s.resolve_state addr; simp [h]

@[simp] theorem State.resolve_flags (s : State) (addr : DataAddr) : (s.resolve addr).2.flags = s.flags := by
  obtain ⟨_, _, h⟩ := s.resolve_state addr; simp [h]

@[simp] theorem State.resolve_bsr (s : State) (addr : DataAddr) : (s.resolve addr).2.bsr = s.bsr := by
  obtain ⟨_, _, h⟩ := s.resolve_state addr; simp [h]

@[simp] theorem State.resolve_prodh (s : State) (addr : DataAddr) : (s.resolve addr).2.prodh = s.prodh := by
  obtain ⟨_, _, h⟩ := s.resolve_state addr; simp [h]

@[simp] theorem State.resolve_prodl (s : State) (addr : DataAddr) : (s.resolve addr).2.prodl = s.prodl := by
  obtain ⟨_, _, h⟩ := s.resolve_state addr; simp [h]

@[simp] theorem State.resolve_stack (s : State) (addr : DataAddr) : (s.resolve addr).2.stack = s.stack := by
  obtain ⟨_, _, h⟩ := s.resolve_state addr; simp [h]

@[simp] theorem State.resolve_stkful (s : State) (addr : DataAddr) : (s.resolve addr).2.stkful = s.stkful := by
  obtain ⟨_, _, h⟩ := s.resolve_state addr; simp [h]

@[simp] theorem State.resolve_stkunf (s : State) (addr : DataAddr) : (s.resolve addr).2.stkunf = s.stkunf := by
  obtain ⟨_, _, h⟩ := s.resolve_state addr; simp [h]

@[simp] theorem State.resolve_ws (s : State) (addr : DataAddr) : (s.resolve addr).2.ws = s.ws := by
  obtain ⟨_, _, h⟩ := s.resolve_state addr; simp [h]

@[simp] theorem State.resolve_statuss (s : State) (addr : DataAddr) : (s.resolve addr).2.statuss = s.statuss := by
  obtain ⟨_, _, h⟩ := s.resolve_state addr; simp [h]

@[simp] theorem State.resolve_bsrs (s : State) (addr : DataAddr) : (s.resolve addr).2.bsrs = s.bsrs := by
  obtain ⟨_, _, h⟩ := s.resolve_state addr; simp [h]

@[simp] theorem State.resolve_tblptr (s : State) (addr : DataAddr) : (s.resolve addr).2.tblptr = s.tblptr := by
  obtain ⟨_, _, h⟩ := s.resolve_state addr; simp [h]

@[simp] theorem State.resolve_tablat (s : State) (addr : DataAddr) : (s.resolve addr).2.tablat = s.tablat := by
  obtain ⟨_, _, h⟩ := s.resolve_state addr; simp [h]

@[simp] theorem State.resolve_holding (s : State) (addr : DataAddr) : (s.resolve addr).2.holding = s.holding := by
  obtain ⟨_, _, h⟩ := s.resolve_state addr; simp [h]

@[simp] theorem State.resolve_intcon (s : State) (addr : DataAddr) : (s.resolve addr).2.intcon = s.intcon := by
  obtain ⟨_, _, h⟩ := s.resolve_state addr; simp [h]

@[simp] theorem State.resolve_rcon (s : State) (addr : DataAddr) : (s.resolve addr).2.rcon = s.rcon := by
  obtain ⟨_, _, h⟩ := s.resolve_state addr; simp [h]

@[simp] theorem State.resolve_wdt (s : State) (addr : DataAddr) : (s.resolve addr).2.wdt = s.wdt := by
  obtain ⟨_, _, h⟩ := s.resolve_state addr; simp [h]

@[simp] theorem State.resolve_wdtPost (s : State) (addr : DataAddr) : (s.resolve addr).2.wdtPost = s.wdtPost := by
  obtain ⟨_, _, h⟩ := s.resolve_state addr; simp [h]

@[simp] theorem State.resolve_asleep (s : State) (addr : DataAddr) : (s.resolve addr).2.asleep = s.asleep := by
  obtain ⟨_, _, h⟩ := s.resolve_state addr; simp [h]

@[simp] theorem State.resolve_ram (s : State) (addr : DataAddr) : (s.resolve addr).2.ram = s.ram := by
  obtain ⟨_, _, h⟩ := s.resolve_state addr; simp [h]

@[simp] theorem State.resolve_ramEpoch (s : State) (addr : DataAddr) : (s.resolve addr).2.ramEpoch = s.ramEpoch := by
  obtain ⟨_, _, h⟩ := s.resolve_state addr; simp [h]

@[simp] theorem State.resolve_outputs (s : State) (addr : DataAddr) : (s.resolve addr).2.outputs = s.outputs := by
  obtain ⟨_, _, h⟩ := s.resolve_state addr; simp [h]

@[simp] theorem State.resolve_env (s : State) (addr : DataAddr) : (s.resolve addr).2.env = s.env := by
  obtain ⟨_, _, h⟩ := s.resolve_state addr; simp [h]

/-! ### What a write leaves alone -/

@[simp] theorem State.afterWrite_cfg (s : State) (v : Byte) (p : Place) : (s.afterWrite v p).cfg = s.cfg := by
  cases p with
  | sfr r => cases r <;> simp [State.afterWrite, State.writeSfr]
  | _ => rfl

@[simp] theorem State.afterWrite_prog (s : State) (v : Byte) (p : Place) : (s.afterWrite v p).prog = s.prog := by
  cases p with
  | sfr r => cases r <;> simp [State.afterWrite, State.writeSfr]
  | _ => rfl

@[simp] theorem State.afterWrite_stkful (s : State) (v : Byte) (p : Place) : (s.afterWrite v p).stkful = s.stkful := by
  cases p with
  | sfr r => cases r <;> simp [State.afterWrite, State.writeSfr]
  | _ => rfl

@[simp] theorem State.afterWrite_stkunf (s : State) (v : Byte) (p : Place) : (s.afterWrite v p).stkunf = s.stkunf := by
  cases p with
  | sfr r => cases r <;> simp [State.afterWrite, State.writeSfr]
  | _ => rfl

@[simp] theorem State.afterWrite_ws (s : State) (v : Byte) (p : Place) : (s.afterWrite v p).ws = s.ws := by
  cases p with
  | sfr r => cases r <;> simp [State.afterWrite, State.writeSfr]
  | _ => rfl

@[simp] theorem State.afterWrite_statuss (s : State) (v : Byte) (p : Place) : (s.afterWrite v p).statuss = s.statuss := by
  cases p with
  | sfr r => cases r <;> simp [State.afterWrite, State.writeSfr]
  | _ => rfl

@[simp] theorem State.afterWrite_bsrs (s : State) (v : Byte) (p : Place) : (s.afterWrite v p).bsrs = s.bsrs := by
  cases p with
  | sfr r => cases r <;> simp [State.afterWrite, State.writeSfr]
  | _ => rfl

@[simp] theorem State.afterWrite_holding (s : State) (v : Byte) (p : Place) : (s.afterWrite v p).holding = s.holding := by
  cases p with
  | sfr r => cases r <;> simp [State.afterWrite, State.writeSfr]
  | _ => rfl

@[simp] theorem State.afterWrite_wdt (s : State) (v : Byte) (p : Place) : (s.afterWrite v p).wdt = s.wdt := by
  cases p with
  | sfr r => cases r <;> simp [State.afterWrite, State.writeSfr]
  | _ => rfl

@[simp] theorem State.afterWrite_wdtPost (s : State) (v : Byte) (p : Place) : (s.afterWrite v p).wdtPost = s.wdtPost := by
  cases p with
  | sfr r => cases r <;> simp [State.afterWrite, State.writeSfr]
  | _ => rfl

@[simp] theorem State.afterWrite_asleep (s : State) (v : Byte) (p : Place) : (s.afterWrite v p).asleep = s.asleep := by
  cases p with
  | sfr r => cases r <;> simp [State.afterWrite, State.writeSfr]
  | _ => rfl

@[simp] theorem State.afterWrite_ramEpoch (s : State) (v : Byte) (p : Place) : (s.afterWrite v p).ramEpoch = s.ramEpoch := by
  cases p with
  | sfr r => cases r <;> simp [State.afterWrite, State.writeSfr]
  | _ => rfl

@[simp] theorem State.afterWrite_draws (s : State) (v : Byte) (p : Place) : (s.afterWrite v p).draws = s.draws := by
  cases p with
  | sfr r => cases r <;> simp [State.afterWrite, State.writeSfr]
  | _ => rfl

@[simp] theorem State.afterWrite_env (s : State) (v : Byte) (p : Place) : (s.afterWrite v p).env = s.env := by
  cases p with
  | sfr r => cases r <;> simp [State.afterWrite, State.writeSfr]
  | _ => rfl

theorem State.afterWrite_pc (s : State) (v : Byte) (p : Place) (h0 : p ≠ .sfr .pcl) :
    (s.afterWrite v p).pc = s.pc := by
  cases p with
  | sfr r => cases r <;> first | contradiction | simp [State.afterWrite, State.writeSfr]
  | _ => rfl

theorem State.afterWrite_w (s : State) (v : Byte) (p : Place) (h0 : p ≠ .sfr .wreg) :
    (s.afterWrite v p).w = s.w := by
  cases p with
  | sfr r => cases r <;> first | contradiction | simp [State.afterWrite, State.writeSfr]
  | _ => rfl

theorem State.afterWrite_flags (s : State) (v : Byte) (p : Place) (h0 : p ≠ .sfr .status) :
    (s.afterWrite v p).flags = s.flags := by
  cases p with
  | sfr r => cases r <;> first | contradiction | simp [State.afterWrite, State.writeSfr]
  | _ => rfl

theorem State.afterWrite_bsr (s : State) (v : Byte) (p : Place) (h0 : p ≠ .sfr .bsr) :
    (s.afterWrite v p).bsr = s.bsr := by
  cases p with
  | sfr r => cases r <;> first | contradiction | simp [State.afterWrite, State.writeSfr]
  | _ => rfl

theorem State.afterWrite_fsr0 (s : State) (v : Byte) (p : Place) (h0 : p ≠ .sfr .fsr0h) (h1 : p ≠ .sfr .fsr0l) :
    (s.afterWrite v p).fsr0 = s.fsr0 := by
  cases p with
  | sfr r => cases r <;> first | contradiction | simp [State.afterWrite, State.writeSfr]
  | _ => rfl

theorem State.afterWrite_fsr1 (s : State) (v : Byte) (p : Place) (h0 : p ≠ .sfr .fsr1h) (h1 : p ≠ .sfr .fsr1l) :
    (s.afterWrite v p).fsr1 = s.fsr1 := by
  cases p with
  | sfr r => cases r <;> first | contradiction | simp [State.afterWrite, State.writeSfr]
  | _ => rfl

theorem State.afterWrite_fsr2 (s : State) (v : Byte) (p : Place) (h0 : p ≠ .sfr .fsr2h) (h1 : p ≠ .sfr .fsr2l) :
    (s.afterWrite v p).fsr2 = s.fsr2 := by
  cases p with
  | sfr r => cases r <;> first | contradiction | simp [State.afterWrite, State.writeSfr]
  | _ => rfl

theorem State.afterWrite_prodh (s : State) (v : Byte) (p : Place) (h0 : p ≠ .sfr .prodh) :
    (s.afterWrite v p).prodh = s.prodh := by
  cases p with
  | sfr r => cases r <;> first | contradiction | simp [State.afterWrite, State.writeSfr]
  | _ => rfl

theorem State.afterWrite_prodl (s : State) (v : Byte) (p : Place) (h0 : p ≠ .sfr .prodl) :
    (s.afterWrite v p).prodl = s.prodl := by
  cases p with
  | sfr r => cases r <;> first | contradiction | simp [State.afterWrite, State.writeSfr]
  | _ => rfl

theorem State.afterWrite_pclath (s : State) (v : Byte) (p : Place) (h0 : p ≠ .sfr .pclath) :
    (s.afterWrite v p).pclath = s.pclath := by
  cases p with
  | sfr r => cases r <;> first | contradiction | simp [State.afterWrite, State.writeSfr]
  | _ => rfl

theorem State.afterWrite_pclatu (s : State) (v : Byte) (p : Place) (h0 : p ≠ .sfr .pclatu) :
    (s.afterWrite v p).pclatu = s.pclatu := by
  cases p with
  | sfr r => cases r <;> first | contradiction | simp [State.afterWrite, State.writeSfr]
  | _ => rfl

theorem State.afterWrite_stack (s : State) (v : Byte) (p : Place) (h0 : p ≠ .sfr .tosu) (h1 : p ≠ .sfr .tosh) (h2 : p ≠ .sfr .tosl) :
    (s.afterWrite v p).stack = s.stack := by
  cases p with
  | sfr r => cases r <;> first | contradiction | simp [State.afterWrite, State.writeSfr]
  | _ => rfl

theorem State.afterWrite_tblptr (s : State) (v : Byte) (p : Place) (h0 : p ≠ .sfr .tblptru) (h1 : p ≠ .sfr .tblptrh) (h2 : p ≠ .sfr .tblptrl) :
    (s.afterWrite v p).tblptr = s.tblptr := by
  cases p with
  | sfr r => cases r <;> first | contradiction | simp [State.afterWrite, State.writeSfr]
  | _ => rfl

theorem State.afterWrite_tablat (s : State) (v : Byte) (p : Place) (h0 : p ≠ .sfr .tablat) :
    (s.afterWrite v p).tablat = s.tablat := by
  cases p with
  | sfr r => cases r <;> first | contradiction | simp [State.afterWrite, State.writeSfr]
  | _ => rfl

theorem State.afterWrite_intcon (s : State) (v : Byte) (p : Place) (h0 : p ≠ .sfr .intcon) :
    (s.afterWrite v p).intcon = s.intcon := by
  cases p with
  | sfr r => cases r <;> first | contradiction | simp [State.afterWrite, State.writeSfr]
  | _ => rfl

theorem State.afterWrite_rcon (s : State) (v : Byte) (p : Place) (h0 : p ≠ .sfr .rcon) :
    (s.afterWrite v p).rcon = s.rcon := by
  cases p with
  | sfr r => cases r <;> first | contradiction | simp [State.afterWrite, State.writeSfr]
  | _ => rfl

theorem State.afterWrite_ramByte (s : State) (v : Byte) (p : Place) (addr : DataAddr) (h : p ≠ .ram addr) :
    (s.afterWrite v p).ramByte addr = s.ramByte addr := by
  cases p with
  | sfr r => cases r <;> simp [State.afterWrite, State.writeSfr, State.ramByte]
  | ram b =>
    have hb : addr.toNat ≠ b.toNat := fun hh => h (by rw [BitVec.eq_of_toNat_eq hh])
    simp [State.afterWrite, State.ramByte, Memory.lookup_store_other _ _ _ _ _ hb]
  | _ => rfl

theorem State.afterWrite_outputs (s : State) (v : Byte) (p : Place) (h : ∀ addr, p ≠ .peripheral addr) :
    (s.afterWrite v p).outputs = s.outputs := by
  cases p with
  | sfr r => cases r <;> simp [State.afterWrite, State.writeSfr]
  | peripheral b => exact absurd rfl (h b)
  | _ => rfl

theorem State.afterWrite_pc_even (s : State) (v : Byte) (p : Place) (h : s.pc.getLsbD 0 = false) :
    (s.afterWrite v p).pc.getLsbD 0 = false := by
  by_cases hp : p = .sfr .pcl
  · subst hp; simp [State.afterWrite, State.writeSfr]
  · rw [State.afterWrite_pc _ _ _ hp, h]

theorem State.afterWrite_stack_length (s : State) (v : Byte) (p : Place) :
    (s.afterWrite v p).stack.length = s.stack.length := by
  cases p with
  | sfr r => cases r <;> simp [State.afterWrite, State.writeSfr]
  | _ => rfl

/-! ### The instruction shapes -/

/-- An instruction with a d bit that does not skip: all it can do when it answers a next state. -/
theorem fileOp_of_ok (op : State → Byte → Byte × (Flags → Flags)) (f : Byte) (d : Dest) (a : Access)
    (s : State) (h : s.operandOk f d a) :
    fileOp op f d a s =
      .next (s.fileResult f d a (op (s.afterOperandRead f a) (s.operandValue f a)).1
        (op (s.afterOperandRead f a) (s.operandValue f a)).2) := by
  simp only [fileOp, State.readPlace_of_readable _ _ h.1, State.writeDest_of_writable _ _ _ _ h.2]
  rfl

theorem fileOp_eq_next (op : State → Byte → Byte × (Flags → Flags)) (f : Byte) (d : Dest) (a : Access)
    (s t : State) (h : fileOp op f d a s = .next t) :
    s.operandOk f d a
      ∧ t = s.fileResult f d a (op (s.afterOperandRead f a) (s.operandValue f a)).1
        (op (s.afterOperandRead f a) (s.operandValue f a)).2 := by
  have hok : s.operandOk f d a := by
    simp only [fileOp] at h
    split at h
    · contradiction
    · next x s2 hr =>
      rw [State.readPlace_eq_ok] at hr
      split at h
      · contradiction
      · next s3 hw => exact ⟨hr.1, ((State.writeDest_eq_ok _ _ _ _ _).1 hw).1⟩
  rw [fileOp_of_ok op f d a s hok] at h
  exact ⟨hok, (Host.Outcome.next.inj h).symm⟩

/-- An instruction that writes its operand without reading it. -/
theorem fileStore_of_ok (v : State → Byte) (upd : Flags → Flags) (f : Byte) (a : Access) (s : State)
    (h : (s.operand f a).1.writable = true) :
    fileStore v upd f a s =
      let t := ((s.operand f a).2.advance 2#21).afterWrite (v (s.operand f a).2) (s.operand f a).1
      .next { t with flags := upd t.flags } := by
  simp only [fileStore, State.writePlace_of_writable _ _ _ h]

theorem fileStore_eq_next (v : State → Byte) (upd : Flags → Flags) (f : Byte) (a : Access) (s t : State)
    (h : fileStore v upd f a s = .next t) :
    (s.operand f a).1.writable = true ∧
      let u := ((s.operand f a).2.advance 2#21).afterWrite (v (s.operand f a).2) (s.operand f a).1
      t = { u with flags := upd u.flags } := by
  simp only [fileStore] at h
  split at h
  · contradiction
  · next s2 hw =>
    rw [State.writePlace_eq_ok] at hw
    obtain ⟨hw, rfl⟩ := hw
    exact ⟨hw, (Host.Outcome.next.inj h).symm⟩

/-- A compare or test that may skip. -/
theorem testSkip_of_ok (cond : State → Byte → Bool) (f : Byte) (a : Access) (s : State)
    (h : (s.operand f a).1.readable = true) :
    testSkip cond f a s =
      outcome ((s.afterOperandRead f a).skipIf (cond (s.afterOperandRead f a) (s.operandValue f a))) := by
  simp only [testSkip, State.readPlace_of_readable _ _ h]
  rfl

theorem testSkip_eq_next (cond : State → Byte → Bool) (f : Byte) (a : Access) (s t : State)
    (h : testSkip cond f a s = .next t) :
    (s.operand f a).1.readable = true ∧
      (s.afterOperandRead f a).skipIf (cond (s.afterOperandRead f a) (s.operandValue f a)) = .ok t := by
  simp only [testSkip] at h
  split at h
  · contradiction
  · next x s2 hr =>
    rw [State.readPlace_eq_ok] at hr
    obtain ⟨hr, rfl, rfl⟩ := hr
    exact ⟨hr, (outcome_eq_next _ _).1 h⟩

/-- A counting skip, off PCL. -/
theorem changeSkip_of_ok (op : Byte → Byte) (cond : Byte → Bool) (f : Byte) (d : Dest) (a : Access)
    (s : State) (h : s.operandOk f d a) (hp : ¬ (d = .file ∧ (s.operand f a).1 = .sfr .pcl)) :
    changeSkip op cond f d a s =
      outcome (((s.afterOperandRead f a).afterDest d (s.operand f a).1 (op (s.operandValue f a))).skipIf
        (cond (op (s.operandValue f a)))) := by
  simp only [changeSkip, State.readPlace_of_readable _ _ h.1, hp, if_false,
    State.writeDest_of_writable _ _ _ _ h.2]
  rfl

theorem changeSkip_eq_next (op : Byte → Byte) (cond : Byte → Bool) (f : Byte) (d : Dest) (a : Access)
    (s t : State) (h : changeSkip op cond f d a s = .next t) :
    s.operandOk f d a ∧ ¬ (d = .file ∧ (s.operand f a).1 = .sfr .pcl) ∧
      ((s.afterOperandRead f a).afterDest d (s.operand f a).1 (op (s.operandValue f a))).skipIf
        (cond (op (s.operandValue f a))) = .ok t := by
  simp only [changeSkip] at h
  split at h
  · contradiction
  · next x s2 hr =>
    rw [State.readPlace_eq_ok] at hr
    obtain ⟨hr, rfl, rfl⟩ := hr
    split_ifs at h with hp
    split at h
    · contradiction
    · next s3 hw =>
      rw [State.writeDest_eq_ok] at hw
      obtain ⟨hw, rfl⟩ := hw
      exact ⟨⟨hr, hw⟩, hp, (outcome_eq_next _ _).1 h⟩

/-- A bit instruction that writes its operand. -/
theorem bitWrite_of_ok (op : Byte → Byte) (f : Byte) (a : Access) (s : State) (h : s.operandOk f .file a) :
    bitWrite op f a s =
      .next (((s.afterOperandRead f a).advance 2#21).afterWrite (op (s.operandValue f a))
        (s.operand f a).1) := by
  simp only [bitWrite, State.readPlace_of_readable _ _ h.1, State.writePlace_of_writable _ _ _ (h.2 rfl)]
  rfl

theorem bitWrite_eq_next (op : Byte → Byte) (f : Byte) (a : Access) (s t : State)
    (h : bitWrite op f a s = .next t) :
    s.operandOk f .file a ∧
      t = ((s.afterOperandRead f a).advance 2#21).afterWrite (op (s.operandValue f a)) (s.operand f a).1 := by
  simp only [bitWrite] at h
  split at h
  · contradiction
  · next x s2 hr =>
    rw [State.readPlace_eq_ok] at hr
    obtain ⟨hr, rfl, rfl⟩ := hr
    rw [outcome_eq_next, State.writePlace_eq_ok] at h
    exact ⟨⟨hr, fun _ => h.1⟩, h.2⟩

/-- A bit test. -/
theorem bitSkip_of_ok (want : Bool) (f : Byte) (b : BitVec 3) (a : Access) (s : State)
    (h : (s.operand f a).1.readable = true) :
    bitSkip want f b a s =
      outcome ((s.afterOperandRead f a).skipIf ((s.operandValue f a).getLsbD b.toNat == want)) := by
  simp only [bitSkip, State.readPlace_of_readable _ _ h]
  rfl

theorem bitSkip_eq_next (want : Bool) (f : Byte) (b : BitVec 3) (a : Access) (s t : State)
    (h : bitSkip want f b a s = .next t) :
    (s.operand f a).1.readable = true ∧
      (s.afterOperandRead f a).skipIf ((s.operandValue f a).getLsbD b.toNat == want) = .ok t := by
  simp only [bitSkip] at h
  split at h
  · contradiction
  · next x s2 hr =>
    rw [State.readPlace_eq_ok] at hr
    obtain ⟨hr, rfl, rfl⟩ := hr
    exact ⟨hr, (outcome_eq_next _ _).1 h⟩

end Sys2Proof.Machine
end

