-- ==== Sys2Proof/Laws/Exec.lean ====
section
/-! SUPPORT. For every instruction, `exec` as the shared operation its meaning calls, or all that the meaning
can do when it answers a next state. The lemmas about the shared operations (Ops.lean, Operands.lean) take over
from there. -/

namespace Sys2Proof.Machine

/-! ### Meanings that are one shared operation -/

theorem exec_nop (s : State) : exec .nop s = .next (s.advance 2#21) := rfl

theorem exec_sleep (s : State) :
    exec .sleep s =
      .next (({ s with wdt := 0, wdtPost := 0, asleep := true }.setToPd true false).advance 2#21) := rfl

theorem exec_clrwdt (s : State) :
    exec .clrwdt s =
      .next (({ s with wdt := 0, wdtPost := 0 }.setToPd true true).advance 2#21) := rfl

theorem exec_tblrd (s : State) : exec .tblrd s = tableReadOp 0#21 0#21 s := rfl

theorem exec_tblrdPostInc (s : State) : exec .tblrdPostInc s = tableReadOp 0#21 1#21 s := rfl

theorem exec_tblrdPostDec (s : State) : exec .tblrdPostDec s = tableReadOp 0#21 0x1FFFFF#21 s := rfl

theorem exec_tblrdPreInc (s : State) : exec .tblrdPreInc s = tableReadOp 1#21 0#21 s := rfl

theorem exec_tblwt (s : State) : exec .tblwt s = tableWriteOp 0#21 0#21 s := rfl

theorem exec_tblwtPostInc (s : State) : exec .tblwtPostInc s = tableWriteOp 0#21 1#21 s := rfl

theorem exec_tblwtPostDec (s : State) : exec .tblwtPostDec s = tableWriteOp 0#21 0x1FFFFF#21 s := rfl

theorem exec_tblwtPreInc (s : State) : exec .tblwtPreInc s = tableWriteOp 1#21 0#21 s := rfl

theorem exec_retfie (fast : Bool) (s : State) : exec (.retfie fast) s = outcome (s.interruptReturn fast) := rfl

theorem exec_movlb (k : Byte) (s : State) :
    exec (.movlb k) s =
      .next ({ s with bsr := k.extractLsb' 0 4 }.advance 2#21) := rfl

theorem exec_decf (f : Byte) (d : Dest) (a : Access) (s : State) :
    exec (.decf f d a) s =
      fileOp (fun _ x => allFlags (sub8 x 0x01#8 false)) f d a s := rfl

theorem exec_sublw (k : Byte) (s : State) :
    exec (.sublw k) s =
      literalOp ((sub8 k s.w false).1, fun _ => (sub8 k s.w false).2) s := rfl

theorem exec_iorlw (k : Byte) (s : State) :
    exec (.iorlw k) s =
      literalOp (s.w ||| k, setZN (s.w ||| k)) s := rfl

theorem exec_xorlw (k : Byte) (s : State) :
    exec (.xorlw k) s =
      literalOp (s.w ^^^ k, setZN (s.w ^^^ k)) s := rfl

theorem exec_andlw (k : Byte) (s : State) :
    exec (.andlw k) s =
      literalOp (s.w &&& k, setZN (s.w &&& k)) s := rfl

theorem exec_retlw (k : Byte) (s : State) : exec (.retlw k) s = outcome { s with w := k }.popPc := rfl

theorem exec_mullw (k : Byte) (s : State) : exec (.mullw k) s = .next ((s.setProd s.w k).advance 2#21) := rfl

theorem exec_movlw (k : Byte) (s : State) : exec (.movlw k) s = literalOp (k, fun fl => fl) s := rfl

theorem exec_addlw (k : Byte) (s : State) :
    exec (.addlw k) s =
      literalOp ((add8 s.w k false).1, fun _ => (add8 s.w k false).2) s := rfl

theorem exec_iorwf (f : Byte) (d : Dest) (a : Access) (s : State) :
    exec (.iorwf f d a) s =
      fileOp (fun t x => znFlags (t.w ||| x)) f d a s := rfl

theorem exec_andwf (f : Byte) (d : Dest) (a : Access) (s : State) :
    exec (.andwf f d a) s =
      fileOp (fun t x => znFlags (t.w &&& x)) f d a s := rfl

theorem exec_xorwf (f : Byte) (d : Dest) (a : Access) (s : State) :
    exec (.xorwf f d a) s =
      fileOp (fun t x => znFlags (t.w ^^^ x)) f d a s := rfl

theorem exec_comf (f : Byte) (d : Dest) (a : Access) (s : State) :
    exec (.comf f d a) s =
      fileOp (fun _ x => znFlags (~~~x)) f d a s := rfl

theorem exec_addwfc (f : Byte) (d : Dest) (a : Access) (s : State) :
    exec (.addwfc f d a) s =
      fileOp (fun t x => allFlags (add8 t.w x t.flags.c)) f d a s := rfl

theorem exec_addwf (f : Byte) (d : Dest) (a : Access) (s : State) :
    exec (.addwf f d a) s =
      fileOp (fun t x => allFlags (add8 t.w x false)) f d a s := rfl

theorem exec_incf (f : Byte) (d : Dest) (a : Access) (s : State) :
    exec (.incf f d a) s =
      fileOp (fun _ x => allFlags (add8 x 0x01#8 false)) f d a s := rfl

theorem exec_decfsz (f : Byte) (d : Dest) (a : Access) (s : State) :
    exec (.decfsz f d a) s =
      changeSkip (fun x => x - 0x01#8) (fun r => r == 0x00#8) f d a s := rfl

theorem exec_rrcf (f : Byte) (d : Dest) (a : Access) (s : State) :
    exec (.rrcf f d a) s =
      fileOp (fun t x => cznFlags (x.getLsbD 0) (BitVec.ofBool t.flags.c ++ x.extractLsb' 1 7)) f d a s := rfl

theorem exec_rlcf (f : Byte) (d : Dest) (a : Access) (s : State) :
    exec (.rlcf f d a) s =
      fileOp (fun t x => cznFlags (x.getLsbD 7) (x.extractLsb' 0 7 ++ BitVec.ofBool t.flags.c)) f d a s := rfl

theorem exec_swapf (f : Byte) (d : Dest) (a : Access) (s : State) :
    exec (.swapf f d a) s =
      fileOp (fun _ x => (x.extractLsb' 0 4 ++ x.extractLsb' 4 4, fun fl => fl)) f d a s := rfl

theorem exec_incfsz (f : Byte) (d : Dest) (a : Access) (s : State) :
    exec (.incfsz f d a) s =
      changeSkip (fun x => x + 0x01#8) (fun r => r == 0x00#8) f d a s := rfl

theorem exec_rrncf (f : Byte) (d : Dest) (a : Access) (s : State) :
    exec (.rrncf f d a) s =
      fileOp (fun _ x => znFlags (x.extractLsb' 0 1 ++ x.extractLsb' 1 7)) f d a s := rfl

theorem exec_rlncf (f : Byte) (d : Dest) (a : Access) (s : State) :
    exec (.rlncf f d a) s =
      fileOp (fun _ x => znFlags (x.extractLsb' 0 7 ++ x.extractLsb' 7 1)) f d a s := rfl

theorem exec_infsnz (f : Byte) (d : Dest) (a : Access) (s : State) :
    exec (.infsnz f d a) s =
      changeSkip (fun x => x + 0x01#8) (fun r => r != 0x00#8) f d a s := rfl

theorem exec_dcfsnz (f : Byte) (d : Dest) (a : Access) (s : State) :
    exec (.dcfsnz f d a) s =
      changeSkip (fun x => x - 0x01#8) (fun r => r != 0x00#8) f d a s := rfl

theorem exec_movf (f : Byte) (d : Dest) (a : Access) (s : State) :
    exec (.movf f d a) s =
      fileOp (fun _ x => znFlags x) f d a s := rfl

theorem exec_subfwb (f : Byte) (d : Dest) (a : Access) (s : State) :
    exec (.subfwb f d a) s =
      fileOp (fun t x => allFlags (sub8 t.w x (!t.flags.c))) f d a s := rfl

theorem exec_subwfb (f : Byte) (d : Dest) (a : Access) (s : State) :
    exec (.subwfb f d a) s =
      fileOp (fun t x => allFlags (sub8 x t.w (!t.flags.c))) f d a s := rfl

theorem exec_subwf (f : Byte) (d : Dest) (a : Access) (s : State) :
    exec (.subwf f d a) s =
      fileOp (fun t x => allFlags (sub8 x t.w false)) f d a s := rfl

theorem exec_cpfslt (f : Byte) (a : Access) (s : State) :
    exec (.cpfslt f a) s =
      testSkip (fun t x => decide (x.toNat < t.w.toNat)) f a s := rfl

theorem exec_cpfseq (f : Byte) (a : Access) (s : State) :
    exec (.cpfseq f a) s =
      testSkip (fun t x => x == t.w) f a s := rfl

theorem exec_cpfsgt (f : Byte) (a : Access) (s : State) :
    exec (.cpfsgt f a) s =
      testSkip (fun t x => decide (t.w.toNat < x.toNat)) f a s := rfl

theorem exec_tstfsz (f : Byte) (a : Access) (s : State) :
    exec (.tstfsz f a) s =
      testSkip (fun _ x => x == 0x00#8) f a s := rfl

theorem exec_setf (f : Byte) (a : Access) (s : State) :
    exec (.setf f a) s =
      fileStore (fun _ => 0xFF#8) (fun fl => fl) f a s := rfl

theorem exec_clrf (f : Byte) (a : Access) (s : State) :
    exec (.clrf f a) s =
      fileStore (fun _ => 0x00#8) (fun fl => { fl with z := true }) f a s := rfl

theorem exec_negf (f : Byte) (a : Access) (s : State) :
    exec (.negf f a) s =
      fileOp (fun _ x => allFlags (add8 (~~~x) 0x01#8 false)) f .file a s := rfl

theorem exec_movwf (f : Byte) (a : Access) (s : State) :
    exec (.movwf f a) s =
      fileStore (fun t => t.w) (fun fl => fl) f a s := rfl

theorem exec_btg (f : Byte) (b : BitVec 3) (a : Access) (s : State) :
    exec (.btg f b a) s =
      bitWrite (fun x => withBit x b.toNat (!x.getLsbD b.toNat)) f a s := rfl

theorem exec_bsf (f : Byte) (b : BitVec 3) (a : Access) (s : State) :
    exec (.bsf f b a) s =
      bitWrite (fun x => withBit x b.toNat true) f a s := rfl

theorem exec_bcf (f : Byte) (b : BitVec 3) (a : Access) (s : State) :
    exec (.bcf f b a) s =
      bitWrite (fun x => withBit x b.toNat false) f a s := rfl

theorem exec_btfss (f : Byte) (b : BitVec 3) (a : Access) (s : State) :
    exec (.btfss f b a) s =
      bitSkip true f b a s := rfl

theorem exec_btfsc (f : Byte) (b : BitVec 3) (a : Access) (s : State) :
    exec (.btfsc f b a) s =
      bitSkip false f b a s := rfl

theorem exec_bra (n : BitVec 11) (s : State) : exec (.bra n) s = .next (s.setPc (s.branchTarget n)) := rfl

theorem exec_bz (n : Byte) (s : State) : exec (.bz n) s = branchIf s.flags.z n s := rfl

theorem exec_bnz (n : Byte) (s : State) : exec (.bnz n) s = branchIf (!s.flags.z) n s := rfl

theorem exec_bc (n : Byte) (s : State) : exec (.bc n) s = branchIf s.flags.c n s := rfl

theorem exec_bnc (n : Byte) (s : State) : exec (.bnc n) s = branchIf (!s.flags.c) n s := rfl

theorem exec_bov (n : Byte) (s : State) : exec (.bov n) s = branchIf s.flags.ov n s := rfl

theorem exec_bnov (n : Byte) (s : State) : exec (.bnov n) s = branchIf (!s.flags.ov) n s := rfl

theorem exec_bn (n : Byte) (s : State) : exec (.bn n) s = branchIf s.flags.n n s := rfl

theorem exec_bnn (n : Byte) (s : State) : exec (.bnn n) s = branchIf (!s.flags.n) n s := rfl

theorem exec_addfsr (f : Fsr) (k : BitVec 6) (s : State) :
    exec (.addfsr f k) s =
      .next ((s.setFsr f (s.fsr f + k.setWidth 12)).advance 2#21) := rfl

theorem exec_addulnk (k : BitVec 6) (s : State) :
    exec (.addulnk k) s =
      outcome { s with fsr2 := s.fsr2 + k.setWidth 12 }.popPc := rfl

theorem exec_subfsr (f : Fsr) (k : BitVec 6) (s : State) :
    exec (.subfsr f k) s =
      .next ((s.setFsr f (s.fsr f - k.setWidth 12)).advance 2#21) := rfl

theorem exec_subulnk (k : BitVec 6) (s : State) :
    exec (.subulnk k) s =
      outcome { s with fsr2 := s.fsr2 - k.setWidth 12 }.popPc := rfl

theorem exec_lfsr (f : Fsr) (k : BitVec 12) (s : State) :
    exec (.lfsr f k) s =
      .next ((s.setFsr f k).advance 4#21) := rfl

theorem exec_goto (k : BitVec 20) (s : State) : exec (.goto k) s = .next (s.setPc (k ++ 0#1)) := rfl

theorem exec_nopF (x : BitVec 12) (s : State) : exec (.nopF x) s = .next (s.advance 2#21) := rfl

theorem exec_daw (s : State) :
    exec .daw s =
      .next ({ s with
        w := (decimalAdjust s.cfg.dawCarrySticky s.w s.flags.dc s.flags.c).1
        flags := { s.flags with c := (decimalAdjust s.cfg.dawCarrySticky s.w s.flags.dc s.flags.c).2 }
        }.advance 2#21) := rfl

theorem exec_reset (s : State) : exec .reset s = .next s.mclrReset := rfl

/-! ### Meanings that can stop: when they answer a next state, and which -/

theorem exec_push_eq_next (s t : State) :
    exec .push s = .next t ↔ s.stack.length < s.cfg.stackDepth
      ∧ t = { s with stack := (s.pc + 2#21) :: s.stack }.advance 2#21 := by
  change execPush s = _ ↔ _
  unfold execPush
  split
  · next e h => rw [State.push_eq_error] at h; simp [Nat.not_lt.2 h.1]
  · next u h => rw [State.push_eq_ok] at h; obtain ⟨hl, rfl⟩ := h; simp [hl, eq_comm]

theorem exec_pop_eq_next (s t : State) :
    exec .pop s = .next t ↔ ∃ v rest, s.stack = v :: rest ∧ t = { s with stack := rest }.advance 2#21 := by
  change execPop s = _ ↔ _
  unfold execPop
  split
  · next e h => rw [State.pop_eq_error] at h; simp [h.1]
  · next v u h =>
    rw [State.pop_eq_ok] at h
    obtain ⟨rest, hs, rfl⟩ := h
    simp [hs, eq_comm]

theorem exec_ret_eq_next (fast : Bool) (s t : State) :
    exec (.ret fast) s = .next t ↔ ∃ v rest, s.stack = v :: rest
      ∧ t = ({ s with stack := rest }.setPc v).restoreFast fast := by
  change execReturn fast s = _ ↔ _
  unfold execReturn
  split
  · next e h => rw [State.popPc_eq_error] at h; simp [h.1]
  · next u h =>
    rw [State.popPc_eq_ok] at h
    obtain ⟨v, rest, hs, rfl⟩ := h
    simp [hs, eq_comm]

theorem exec_callw_eq_next (s t : State) :
    exec .callw s = .next t ↔ s.stack.length < s.cfg.stackDepth
      ∧ t = { s with stack := (s.pc + 2#21) :: s.stack }.setPc (s.pclTarget s.w) := by
  change execCallw s = _ ↔ _
  unfold execCallw
  split
  · next e h => rw [State.push_eq_error] at h; simp [Nat.not_lt.2 h.1]
  · next u h => rw [State.push_eq_ok] at h; obtain ⟨hl, rfl⟩ := h; simp [hl, eq_comm]

theorem exec_rcall_eq_next (n : BitVec 11) (s t : State) :
    exec (.rcall n) s = .next t ↔ s.stack.length < s.cfg.stackDepth
      ∧ t = { s with stack := (s.pc + 2#21) :: s.stack }.setPc (s.branchTarget n) := by
  change execRcall n s = _ ↔ _
  unfold execRcall
  split
  · next e h => rw [State.push_eq_error] at h; simp [Nat.not_lt.2 h.1]
  · next u h => rw [State.push_eq_ok] at h; obtain ⟨hl, rfl⟩ := h; simp [hl, eq_comm]

theorem exec_call_eq_next (k : BitVec 20) (fast : Bool) (s t : State) :
    exec (.call k fast) s = .next t ↔ s.stack.length < s.cfg.stackDepth
      ∧ t = (if fast then { s with stack := (s.pc + 4#21) :: s.stack }.saveFast
          else { s with stack := (s.pc + 4#21) :: s.stack }).setPc (k ++ 0#1) := by
  change execCall k fast s = _ ↔ _
  unfold execCall
  split
  · next e h => rw [State.push_eq_error] at h; simp [Nat.not_lt.2 h.1]
  · next u h => rw [State.push_eq_ok] at h; obtain ⟨hl, rfl⟩ := h; simp [hl, eq_comm]

theorem exec_mulwf_eq_next (f : Byte) (a : Access) (s t : State) :
    exec (.mulwf f a) s = .next t ↔ (s.operand f a).1.readable = true
      ∧ t = ((s.afterOperandRead f a).setProd s.w (s.operandValue f a)).advance 2#21 := by
  change execMulwf f a s = _ ↔ _
  simp only [execMulwf]
  split
  · next e h => rw [State.readPlace_eq_error] at h; obtain ⟨addr, h, -⟩ := h; simp [h, Place.readable]
  · next x u h =>
    rw [State.readPlace_eq_ok] at h
    obtain ⟨hr, rfl, rfl⟩ := h
    have hw := State.afterOperandRead_w s f a
    unfold State.afterOperandRead at hw
    simp only [hr, true_and, Host.Outcome.next.injEq, hw]
    exact eq_comm

theorem exec_movff_eq_next (fs fd : DataAddr) (s t : State) (h : exec (.movff fs fd) s = .next t) :
    forbiddenDestination s.cfg fd = false ∧ (s.resolve fs).1.readable = true ∧
      let u := ((s.resolve fs).2.afterRead (s.resolve fs).1).advance 4#21
      (u.resolve fd).1.writable = true
        ∧ t = (u.resolve fd).2.afterWrite ((s.resolve fs).2.valueAt (s.resolve fs).1) (u.resolve fd).1 := by
  change execMovff fs fd s = _ at h
  simp only [execMovff] at h
  split at h
  · contradiction
  · next hf =>
    split at h
    · contradiction
    · next v u hr =>
      rw [State.readPlace_eq_ok] at hr
      obtain ⟨hr, rfl, rfl⟩ := hr
      rw [outcome_eq_next, State.writePlace_eq_ok] at h
      exact ⟨by simpa using hf, hr, h⟩

theorem exec_movsf_eq_next (zs : BitVec 7) (fd : DataAddr) (s t : State)
    (h : exec (.movsf zs fd) s = .next t) :
    let p := placeAt s.cfg (s.fsr2Offset zs)
    forbiddenDestination s.cfg fd = false ∧ p.readable = true ∧
      let u := (s.afterRead p).advance 4#21
      (u.resolve fd).1.writable = true
        ∧ t = (u.resolve fd).2.afterWrite (s.valueAt p) (u.resolve fd).1 := by
  change execMovsf zs fd s = _ at h
  simp only [execMovsf] at h
  split at h
  · contradiction
  · next hf =>
    split at h
    · contradiction
    · next v u hr =>
      rw [State.readPlace_eq_ok] at hr
      obtain ⟨hr, rfl, rfl⟩ := hr
      rw [outcome_eq_next, State.writePlace_eq_ok] at h
      exact ⟨by simpa using hf, hr, h⟩

theorem exec_movss_eq_next (zs zd : BitVec 7) (x : BitVec 5) (s t : State)
    (h : exec (.movss zs zd x) s = .next t) :
    (indirectAt s.cfg (s.fsr2Offset zd) ≠ none ∧ t = s.advance 4#21)
      ∨ (indirectAt s.cfg (s.fsr2Offset zd) = none
        ∧ (placeAt s.cfg (s.fsr2Offset zd)).writable = true
        ∧ t = ((s.afterRead (placeAt s.cfg (s.fsr2Offset zs))).advance 4#21).afterWrite
            (s.valueAt (placeAt s.cfg (s.fsr2Offset zs))) (placeAt s.cfg (s.fsr2Offset zd))) := by
  change execMovss zs zd s = _ at h
  simp only [execMovss] at h
  split at h
  · contradiction
  · split at h
    · next q hq => cases h; exact .inl ⟨by simp [hq], rfl⟩
    · next hq =>
      split at h
      · contradiction
      · next v u hr =>
        rw [State.readPlace_eq_ok] at hr
        obtain ⟨hr, rfl, rfl⟩ := hr
        rw [outcome_eq_next, State.writePlace_eq_ok] at h
        exact .inr ⟨hq, h⟩

theorem exec_pushl_eq_next (k : Byte) (s t : State) :
    exec (.pushl k) s = .next t ↔
      let q := (s.advance 2#21).resolve s.fsr2
      q.1.writable = true ∧ t = { q.2.afterWrite k q.1 with fsr2 := (q.2.afterWrite k q.1).fsr2 - 1#12 } := by
  change execPushl k s = _ ↔ _
  simp only [execPushl]
  split
  · next e h =>
    rw [State.writePlace_eq_error] at h
    rcases h with ⟨addr, h, -⟩ | ⟨h, -⟩ <;> simp [h, Place.writable]
  · next u h =>
    rw [State.writePlace_eq_ok] at h
    obtain ⟨hw, rfl⟩ := h
    simp only [hw, true_and, Host.Outcome.next.injEq]
    exact eq_comm

/-! ### The table instructions and the relative branches -/

theorem tableReadOp_eq_next (b a : ProgAddr) (s t : State) :
    tableReadOp b a s = .next t ↔ (s.tblptr + b).toNat < s.cfg.progBytes
      ∧ t = { s with tablat := s.progByte (s.tblptr + b), tblptr := s.tblptr + b + a }.advance 2#21 := by
  unfold tableReadOp
  split
  · next e h =>
    rw [State.tableRead_eq_error] at h
    simp only [State.moveTblptr_tblptr, State.moveTblptr_cfg] at h
    simp only [Nat.not_lt.2 h.1, false_and, reduceCtorEq]
  · next u h =>
    rw [State.tableRead_eq_ok] at h
    simp only [State.moveTblptr_tblptr, State.moveTblptr_cfg] at h
    obtain ⟨hl, rfl⟩ := h
    simp only [hl, true_and, Host.Outcome.next.injEq]
    exact eq_comm

theorem tableWriteOp_eq (b a : ProgAddr) (s : State) :
    tableWriteOp b a s = .next ({ s with
      holding := s.holding.set (holdingIndex (s.tblptr + b)) s.tablat
      tblptr := s.tblptr + b + a }.advance 2#21) := rfl

/-- A branch target is even where the PC is. -/
theorem State.branchTarget_even (s : State) {k : Nat} (n : BitVec k) (h : s.pc.getLsbD 0 = false) :
    (s.branchTarget n).getLsbD 0 = false := by
  refine even_add _ _ (even_add _ _ h (by decide)) ?_
  simp

end Sys2Proof.Machine
end

