-- ==== Sys2Proof/Laws/Flags.lean ====
section
/-! SUPPORT. The Status byte and the five bits of R48's row "Status": what goes in comes out again. -/

namespace Sys2Proof.Machine

theorem bitAt_getLsbD (i : Fin 8) (b : Bool) (j : Nat) : (bitAt i b).getLsbD j = (b && decide (j = i.val)) := by
  have h : ∀ i : Fin 8, ∀ j : Fin 8, (0x01#8 <<< i.val).getLsbD j.val = decide (j.val = i.val) := by decide
  cases b
  · simp [bitAt]
  · by_cases hj : j < 8
    · simpa [bitAt] using h i ⟨j, hj⟩
    · have h1 : (bitAt i true).getLsbD j = false := BitVec.getLsbD_of_ge _ _ (by omega)
      have h2 : j ≠ i.val := by have := i.isLt; omega
      simp [h1, h2]

theorem Flags.toByte_getLsbD (fl : Flags) (l : StatusLayout) (j : Nat) :
    (fl.toByte l).getLsbD j = ((fl.n && decide (j = l.n.val)) || (fl.ov && decide (j = l.ov.val))
      || (fl.z && decide (j = l.z.val)) || (fl.dc && decide (j = l.dc.val)) || (fl.c && decide (j = l.c.val))) := by
  simp only [Flags.toByte, BitVec.getLsbD_or, bitAt_getLsbD]

/-- With a bit of its own for each flag, the Status byte holds the flags. -/
theorem Flags.ofByte_toByte (fl : Flags) (l : StatusLayout) (h : Config.layoutWf l = true) :
    Flags.ofByte l (fl.toByte l) = fl := by
  simp only [Config.layoutWf, decide_eq_true_eq, List.nodup_cons, List.mem_cons, List.not_mem_nil, or_false,
    not_or, Fin.ext_iff] at h
  obtain ⟨⟨h1, h2, h3, h4⟩, ⟨h5, h6, h7⟩, ⟨h8, h9⟩, h10, -⟩ := h
  cases fl
  simp only [Flags.ofByte, Flags.toByte_getLsbD]
  simp [h1, h2, h3, h4, h5, h6, h7, h8, h9, h10, Ne.symm h1, Ne.symm h2, Ne.symm h3, Ne.symm h4, Ne.symm h5,
    Ne.symm h6, Ne.symm h7, Ne.symm h8, Ne.symm h9, Ne.symm h10]

@[simp] theorem Flags.ofBits_bits (fl : Flags) : Flags.ofBits fl.bits = fl := by
  cases fl with
  | mk n ov z dc c => cases n <;> cases ov <;> cases z <;> cases dc <;> cases c <;> rfl

@[simp] theorem Flags.bits_ofBits (v : BitVec 5) : (Flags.ofBits v).bits = v := by
  revert v; decide

end Sys2Proof.Machine
end

