-- ==== Sys2Proof/Laws/PerInstr.lean ====
section
/-! SUPPORT. Statements for all instructions, one lemma per constructor of Instr. -/

namespace Sys2Proof.Laws.EncodingSize

open Sys2Proof

/-- R90: an instruction is encoded in as many words as its row of the opcode table says. -/
def Statement (i : Instr) : Prop := (encode i).length = i.words

theorem nop : Statement .nop := rfl
theorem sleep : Statement .sleep := rfl
theorem clrwdt : Statement .clrwdt := rfl
theorem push : Statement .push := rfl
theorem pop : Statement .pop := rfl
theorem daw : Statement .daw := rfl
theorem tblrd : Statement .tblrd := rfl
theorem tblrdPostInc : Statement .tblrdPostInc := rfl
theorem tblrdPostDec : Statement .tblrdPostDec := rfl
theorem tblrdPreInc : Statement .tblrdPreInc := rfl
theorem tblwt : Statement .tblwt := rfl
theorem tblwtPostInc : Statement .tblwtPostInc := rfl
theorem tblwtPostDec : Statement .tblwtPostDec := rfl
theorem tblwtPreInc : Statement .tblwtPreInc := rfl
theorem retfie (s : Bool) : Statement (.retfie s) := rfl
theorem ret (s : Bool) : Statement (.ret s) := rfl
theorem callw : Statement .callw := rfl
theorem reset : Statement .reset := rfl
theorem movlb (k : Byte) : Statement (.movlb k) := rfl
theorem mulwf (f : Byte) (a : Access) : Statement (.mulwf f a) := rfl
theorem decf (f : Byte) (d : Dest) (a : Access) : Statement (.decf f d a) := rfl
theorem sublw (k : Byte) : Statement (.sublw k) := rfl
theorem iorlw (k : Byte) : Statement (.iorlw k) := rfl
theorem xorlw (k : Byte) : Statement (.xorlw k) := rfl
theorem andlw (k : Byte) : Statement (.andlw k) := rfl
theorem retlw (k : Byte) : Statement (.retlw k) := rfl
theorem mullw (k : Byte) : Statement (.mullw k) := rfl
theorem movlw (k : Byte) : Statement (.movlw k) := rfl
theorem addlw (k : Byte) : Statement (.addlw k) := rfl
theorem iorwf (f : Byte) (d : Dest) (a : Access) : Statement (.iorwf f d a) := rfl
theorem andwf (f : Byte) (d : Dest) (a : Access) : Statement (.andwf f d a) := rfl
theorem xorwf (f : Byte) (d : Dest) (a : Access) : Statement (.xorwf f d a) := rfl
theorem comf (f : Byte) (d : Dest) (a : Access) : Statement (.comf f d a) := rfl
theorem addwfc (f : Byte) (d : Dest) (a : Access) : Statement (.addwfc f d a) := rfl
theorem addwf (f : Byte) (d : Dest) (a : Access) : Statement (.addwf f d a) := rfl
theorem incf (f : Byte) (d : Dest) (a : Access) : Statement (.incf f d a) := rfl
theorem decfsz (f : Byte) (d : Dest) (a : Access) : Statement (.decfsz f d a) := rfl
theorem rrcf (f : Byte) (d : Dest) (a : Access) : Statement (.rrcf f d a) := rfl
theorem rlcf (f : Byte) (d : Dest) (a : Access) : Statement (.rlcf f d a) := rfl
theorem swapf (f : Byte) (d : Dest) (a : Access) : Statement (.swapf f d a) := rfl
theorem incfsz (f : Byte) (d : Dest) (a : Access) : Statement (.incfsz f d a) := rfl
theorem rrncf (f : Byte) (d : Dest) (a : Access) : Statement (.rrncf f d a) := rfl
theorem rlncf (f : Byte) (d : Dest) (a : Access) : Statement (.rlncf f d a) := rfl
theorem infsnz (f : Byte) (d : Dest) (a : Access) : Statement (.infsnz f d a) := rfl
theorem dcfsnz (f : Byte) (d : Dest) (a : Access) : Statement (.dcfsnz f d a) := rfl
theorem movf (f : Byte) (d : Dest) (a : Access) : Statement (.movf f d a) := rfl
theorem subfwb (f : Byte) (d : Dest) (a : Access) : Statement (.subfwb f d a) := rfl
theorem subwfb (f : Byte) (d : Dest) (a : Access) : Statement (.subwfb f d a) := rfl
theorem subwf (f : Byte) (d : Dest) (a : Access) : Statement (.subwf f d a) := rfl
theorem cpfslt (f : Byte) (a : Access) : Statement (.cpfslt f a) := rfl
theorem cpfseq (f : Byte) (a : Access) : Statement (.cpfseq f a) := rfl
theorem cpfsgt (f : Byte) (a : Access) : Statement (.cpfsgt f a) := rfl
theorem tstfsz (f : Byte) (a : Access) : Statement (.tstfsz f a) := rfl
theorem setf (f : Byte) (a : Access) : Statement (.setf f a) := rfl
theorem clrf (f : Byte) (a : Access) : Statement (.clrf f a) := rfl
theorem negf (f : Byte) (a : Access) : Statement (.negf f a) := rfl
theorem movwf (f : Byte) (a : Access) : Statement (.movwf f a) := rfl
theorem btg (f : Byte) (b : BitVec 3) (a : Access) : Statement (.btg f b a) := rfl
theorem bsf (f : Byte) (b : BitVec 3) (a : Access) : Statement (.bsf f b a) := rfl
theorem bcf (f : Byte) (b : BitVec 3) (a : Access) : Statement (.bcf f b a) := rfl
theorem btfss (f : Byte) (b : BitVec 3) (a : Access) : Statement (.btfss f b a) := rfl
theorem btfsc (f : Byte) (b : BitVec 3) (a : Access) : Statement (.btfsc f b a) := rfl
theorem movff (fs : DataAddr) (fd : DataAddr) : Statement (.movff fs fd) := rfl
theorem bra (n : BitVec 11) : Statement (.bra n) := rfl
theorem rcall (n : BitVec 11) : Statement (.rcall n) := rfl
theorem bz (n : Byte) : Statement (.bz n) := rfl
theorem bnz (n : Byte) : Statement (.bnz n) := rfl
theorem bc (n : Byte) : Statement (.bc n) := rfl
theorem bnc (n : Byte) : Statement (.bnc n) := rfl
theorem bov (n : Byte) : Statement (.bov n) := rfl
theorem bnov (n : Byte) : Statement (.bnov n) := rfl
theorem bn (n : Byte) : Statement (.bn n) := rfl
theorem bnn (n : Byte) : Statement (.bnn n) := rfl
theorem addfsr (f : Fsr) (k : BitVec 6) : Statement (.addfsr f k) := rfl
theorem addulnk (k : BitVec 6) : Statement (.addulnk k) := rfl
theorem subfsr (f : Fsr) (k : BitVec 6) : Statement (.subfsr f k) := rfl
theorem subulnk (k : BitVec 6) : Statement (.subulnk k) := rfl
theorem pushl (k : Byte) : Statement (.pushl k) := rfl
theorem movsf (zs : BitVec 7) (fd : DataAddr) : Statement (.movsf zs fd) := rfl
theorem movss (zs : BitVec 7) (zd : BitVec 7) (x : BitVec 5) : Statement (.movss zs zd x) := rfl
theorem call (k : BitVec 20) (s : Bool) : Statement (.call k s) := rfl
theorem lfsr (f : Fsr) (k : BitVec 12) : Statement (.lfsr f k) := rfl
theorem goto (k : BitVec 20) : Statement (.goto k) := rfl
theorem nopF (x : BitVec 12) : Statement (.nopF x) := rfl

end Sys2Proof.Laws.EncodingSize
end

