-- ==== Sys2Proof/Laws/Reset.lean ====
section
/-! SUPPORT. `Reset(class)` in the words of R48: what each register takes from its entry. -/

namespace Sys2Proof.Machine

theorem ResetTo.load_loads {width : Nat} (e : ResetTo width) (old : BitVec width) (k : Nat) :
    e.Loads old (e.load old k) := by
  cases e <;> first | rfl | trivial

theorem ResetTo.loadBit_loads (e : ResetTo 1) (old : Bool) (k : Nat) :
    e.Loads (BitVec.ofBool old) (BitVec.ofBool (e.loadBit old k)) := by
  have h (v : BitVec 1) : BitVec.ofBool (v.getLsbD 0) = v := by revert v; decide
  rw [ResetTo.loadBit, h]
  exact e.load_loads _ k

@[simp] theorem ResetTo.loadAll_length (e : ResetTo 8) (olds : List Byte) (k : Nat) :
    (e.loadAll olds k).length = olds.length := by
  induction olds generalizing k with
  | nil => rfl
  | cons v vs ih => simp [ResetTo.loadAll, ih]

theorem ResetTo.loadAll_loads (e : ResetTo 8) (olds : List Byte) (k n : Nat) (hn : n < olds.length) :
    e.Loads (olds.getD n 0#8) ((e.loadAll olds k).getD n 0#8) := by
  induction olds generalizing k n with
  | nil => cases hn
  | cons v vs ih =>
    cases n with
    | zero => exact e.load_loads v k
    | succ n => exact ih (k + 1) n (Nat.lt_of_succ_lt_succ hn)

theorem append_high (h : BitVec 4) (l : BitVec 8) : (h ++ l).extractLsb' 8 4 = h := by
  apply BitVec.eq_of_getLsbD_eq
  intro i hi
  rw [BitVec.getLsbD_extractLsb', BitVec.getLsbD_append]
  simp [hi]

theorem append_low (h : BitVec 4) (l : BitVec 8) : (h ++ l).extractLsb' 0 8 = l := by
  apply BitVec.eq_of_getLsbD_eq
  intro i hi
  rw [BitVec.getLsbD_extractLsb', BitVec.getLsbD_append]
  simp [hi]

theorem ResetColumn.loadFsr_high (c : ResetColumn) (old : DataAddr) (k : Nat) :
    (c.loadFsr old k).extractLsb' 8 4 = c.fsrh.load (old.extractLsb' 8 4) k := append_high _ _

theorem ResetColumn.loadFsr_low (c : ResetColumn) (old : DataAddr) (k : Nat) :
    (c.loadFsr old k).extractLsb' 0 8 = c.fsrl.load (old.extractLsb' 0 8) (k + 1) := append_low _ _

/-- What `withBit` leaves in each bit. -/
theorem withBit_getLsbD (x : Byte) (i j : Nat) (b : Bool) (hi : i < 8) :
    (withBit x i b).getLsbD j = if j = i then b else x.getLsbD j := by
  by_cases hj : j < 8
  · have h : ∀ (x : Fin 8) (y : Fin 8), (1#8 <<< x.val).getLsbD y.val = decide (y.val = x.val) := by decide
    by_cases hji : j = i
    · subst hji
      have hk : (1#8 <<< j).getLsbD j = true := (h ⟨j, hj⟩ ⟨j, hj⟩).trans (decide_eq_true rfl)
      cases b <;> simp only [withBit, if_true, if_false, Bool.false_eq_true, BitVec.getLsbD_or,
        BitVec.getLsbD_and, BitVec.getLsbD_not, hk, Bool.not_true, Bool.and_false, Bool.or_true]
    · have hk : (1#8 <<< i).getLsbD j = false := (h ⟨i, hi⟩ ⟨j, hj⟩).trans (decide_eq_false hji)
      cases b <;> simp only [withBit, if_true, if_false, Bool.false_eq_true, BitVec.getLsbD_or,
        BitVec.getLsbD_and, BitVec.getLsbD_not, hk, hj, hji, decide_true, Bool.not_false, Bool.and_true,
        Bool.or_false]
  · have h1 : (withBit x i b).getLsbD j = false := BitVec.getLsbD_of_ge _ _ (by omega)
    have h2 : x.getLsbD j = false := BitVec.getLsbD_of_ge _ _ (by omega)
    have h3 : j ≠ i := by omega
    simp only [h1, h2, h3, if_false]

/-! ### `Reset(class)` -/

theorem State.resetTo_fsr (s : State) (c : ResetColumn) (n : Fsr) :
    ∃ k, (s.resetTo c).fsr n = c.loadFsr (s.fsr n) k := by
  cases n <;> exact ⟨_, rfl⟩

/-- Each bit of INTCON: the two enables by their entries, the others kept. -/
theorem State.resetTo_intcon_getLsbD (s : State) (c : ResetColumn) (n : Nat) :
    (s.resetTo c).intcon.getLsbD n =
      if n = 6 then c.giel.loadBit s.giel (s.draws + 16)
      else if n = 7 then c.gieh.loadBit s.gieh (s.draws + 15) else s.intcon.getLsbD n := by
  simp only [State.resetTo_intcon, withBit_getLsbD _ _ _ _ (show 6 < 8 by omega),
    withBit_getLsbD _ _ _ _ (show 7 < 8 by omega)]

/-- Each bit of RCON: IPEN, TO and PD by their entries, the others kept. -/
theorem State.resetTo_rcon_getLsbD (s : State) (c : ResetColumn) (n : Nat) :
    (s.resetTo c).rcon.getLsbD n =
      if n = 2 then c.powerDown.loadBit (s.rcon.getLsbD 2) (s.draws + 19)
      else if n = 3 then c.timeOut.loadBit (s.rcon.getLsbD 3) (s.draws + 18)
      else if n = 7 then c.ipen.loadBit s.ipen (s.draws + 17) else s.rcon.getLsbD n := by
  simp only [State.resetTo_rcon, withBit_getLsbD _ _ _ _ (show 2 < 8 by omega),
    withBit_getLsbD _ _ _ _ (show 3 < 8 by omega), withBit_getLsbD _ _ _ _ (show 7 < 8 by omega)]

/-- What `Reset(class)` does, in the words of R48. -/
theorem State.resetTo_loads (s : State) (c : ResetColumn) : resetLoads c s (s.resetTo c) := by
  refine ⟨and_mask _, rfl, ResetTo.load_loads .., ResetTo.load_loads .., ResetTo.load_loads .., ?_,
    ResetTo.load_loads .., ?_, ResetTo.load_loads .., ResetTo.load_loads .., ResetTo.load_loads ..,
    ResetTo.load_loads .., ?_, ?_, ?_, ResetTo.load_loads .., ResetTo.load_loads .., ResetTo.load_loads ..,
    ResetTo.loadAll_length .., fun n hn => ResetTo.loadAll_loads _ _ _ n hn, rfl, rfl, rfl, rfl, rfl, rfl⟩
  · simpa [State.resetTo] using ResetTo.load_loads c.status s.flags.bits (s.draws + 3)
  · intro n
    obtain ⟨k, h⟩ := s.resetTo_fsr c n
    rw [h, ResetColumn.loadFsr_high, ResetColumn.loadFsr_low]
    exact ⟨ResetTo.load_loads .., ResetTo.load_loads ..⟩
  · rw [show (s.resetTo c).gieh = _ from s.resetTo_intcon_getLsbD c 7]
    exact ResetTo.loadBit_loads ..
  · rw [show (s.resetTo c).giel = _ from s.resetTo_intcon_getLsbD c 6]
    exact ResetTo.loadBit_loads ..
  · rw [show (s.resetTo c).ipen = _ from s.resetTo_rcon_getLsbD c 7]
    exact ResetTo.loadBit_loads ..

/-- `State.reset` holds what the power-on column of the suggested `ResetValues` loads. -/
theorem State.reset_loads : resetLoads ResetValues.suggested.powerOn State.reset State.reset :=
  ⟨rfl, rfl, rfl, rfl, trivial, trivial, rfl, fun n => by cases n <;> exact ⟨rfl, trivial⟩, trivial, trivial, rfl, rfl,
    rfl, rfl, rfl, trivial, trivial, trivial, rfl, fun _ _ => trivial, rfl, rfl, rfl, rfl, rfl, rfl⟩

end Sys2Proof.Machine
end

