-- ==== Sys2Proof/Laws/Rows.lean ====
section
/-! SUPPORT. The rows of spec/opcode_table.json as masks and patterns, and the sanity check that R101 asks for:
no two rows match the same word. ADDFSR, SUBFSR and LFSR stand once for each ff of 0, 1, 2 (R106). -/

namespace Sys2Proof.Laws

open Sys2Proof

/-- One row: a first word `w` matches it when `w &&& mask = pattern`. -/
structure Row where
  mask : Nat
  pattern : Nat
  deriving DecidableEq, Repr

/-- Two rows that fix some bit differently, so that no word matches both. -/
def Row.apart (r q : Row) : Bool := (r.mask &&& q.mask &&& (r.pattern ^^^ q.pattern)) != 0

/-- NOP to TBLWT*+. -/
def rows0 : List Row := [
  ⟨0xFFFF, 0x0000⟩,
  ⟨0xFFFF, 0x0003⟩,
  ⟨0xFFFF, 0x0004⟩,
  ⟨0xFFFF, 0x0005⟩,
  ⟨0xFFFF, 0x0006⟩,
  ⟨0xFFFF, 0x0007⟩,
  ⟨0xFFFF, 0x0008⟩,
  ⟨0xFFFF, 0x0009⟩,
  ⟨0xFFFF, 0x000A⟩,
  ⟨0xFFFF, 0x000B⟩,
  ⟨0xFFFF, 0x000C⟩,
  ⟨0xFFFF, 0x000D⟩]

/-- TBLWT*- to XORLW. -/
def rows1 : List Row := [
  ⟨0xFFFF, 0x000E⟩,
  ⟨0xFFFF, 0x000F⟩,
  ⟨0xFFFE, 0x0010⟩,
  ⟨0xFFFE, 0x0012⟩,
  ⟨0xFFFF, 0x0014⟩,
  ⟨0xFFFF, 0x00FF⟩,
  ⟨0xFF00, 0x0100⟩,
  ⟨0xFE00, 0x0200⟩,
  ⟨0xFC00, 0x0400⟩,
  ⟨0xFF00, 0x0800⟩,
  ⟨0xFF00, 0x0900⟩,
  ⟨0xFF00, 0x0A00⟩]

/-- ANDLW to INCF. -/
def rows2 : List Row := [
  ⟨0xFF00, 0x0B00⟩,
  ⟨0xFF00, 0x0C00⟩,
  ⟨0xFF00, 0x0D00⟩,
  ⟨0xFF00, 0x0E00⟩,
  ⟨0xFF00, 0x0F00⟩,
  ⟨0xFC00, 0x1000⟩,
  ⟨0xFC00, 0x1400⟩,
  ⟨0xFC00, 0x1800⟩,
  ⟨0xFC00, 0x1C00⟩,
  ⟨0xFC00, 0x2000⟩,
  ⟨0xFC00, 0x2400⟩,
  ⟨0xFC00, 0x2800⟩]

/-- DECFSZ to SUBWFB. -/
def rows3 : List Row := [
  ⟨0xFC00, 0x2C00⟩,
  ⟨0xFC00, 0x3000⟩,
  ⟨0xFC00, 0x3400⟩,
  ⟨0xFC00, 0x3800⟩,
  ⟨0xFC00, 0x3C00⟩,
  ⟨0xFC00, 0x4000⟩,
  ⟨0xFC00, 0x4400⟩,
  ⟨0xFC00, 0x4800⟩,
  ⟨0xFC00, 0x4C00⟩,
  ⟨0xFC00, 0x5000⟩,
  ⟨0xFC00, 0x5400⟩,
  ⟨0xFC00, 0x5800⟩]

/-- SUBWF to BCF. -/
def rows4 : List Row := [
  ⟨0xFC00, 0x5C00⟩,
  ⟨0xFE00, 0x6000⟩,
  ⟨0xFE00, 0x6200⟩,
  ⟨0xFE00, 0x6400⟩,
  ⟨0xFE00, 0x6600⟩,
  ⟨0xFE00, 0x6800⟩,
  ⟨0xFE00, 0x6A00⟩,
  ⟨0xFE00, 0x6C00⟩,
  ⟨0xFE00, 0x6E00⟩,
  ⟨0xF000, 0x7000⟩,
  ⟨0xF000, 0x8000⟩,
  ⟨0xF000, 0x9000⟩]

/-- BTFSS to BN. -/
def rows5 : List Row := [
  ⟨0xF000, 0xA000⟩,
  ⟨0xF000, 0xB000⟩,
  ⟨0xF000, 0xC000⟩,
  ⟨0xF800, 0xD000⟩,
  ⟨0xF800, 0xD800⟩,
  ⟨0xFF00, 0xE000⟩,
  ⟨0xFF00, 0xE100⟩,
  ⟨0xFF00, 0xE200⟩,
  ⟨0xFF00, 0xE300⟩,
  ⟨0xFF00, 0xE400⟩,
  ⟨0xFF00, 0xE500⟩,
  ⟨0xFF00, 0xE600⟩]

/-- BNN to MOVSS. -/
def rows6 : List Row := [
  ⟨0xFF00, 0xE700⟩,
  ⟨0xFFC0, 0xE800⟩,
  ⟨0xFFC0, 0xE840⟩,
  ⟨0xFFC0, 0xE880⟩,
  ⟨0xFFC0, 0xE8C0⟩,
  ⟨0xFFC0, 0xE900⟩,
  ⟨0xFFC0, 0xE940⟩,
  ⟨0xFFC0, 0xE980⟩,
  ⟨0xFFC0, 0xE9C0⟩,
  ⟨0xFF00, 0xEA00⟩,
  ⟨0xFF80, 0xEB00⟩,
  ⟨0xFF80, 0xEB80⟩]

/-- CALL to NOP. -/
def rows7 : List Row := [
  ⟨0xFE00, 0xEC00⟩,
  ⟨0xFFF0, 0xEE00⟩,
  ⟨0xFFF0, 0xEE10⟩,
  ⟨0xFFF0, 0xEE20⟩,
  ⟨0xFF00, 0xEF00⟩,
  ⟨0xF000, 0xF000⟩]

/-- Every row of the opcode table. -/
def rows : List Row :=
  rows0 ++ rows1 ++ rows2 ++ rows3 ++ rows4 ++ rows5 ++ rows6 ++ rows7

/-- R101: no two rows match the same word. -/
theorem rows_apart : rows.Pairwise (fun r q => r.apart q = true) := by decide

/-- R100: the pattern of every row, with all its other bits 0 (and a second word of 1111 and zeros where it
has one), decodes with XINST = 1. -/
theorem rows_decode : rows.all (fun r =>
    match decode true (wordsBytes [BitVec.ofNat 16 r.pattern, 0xF000#16]) with
    | .ok _ => true
    | .error _ => false) = true := by decide

end Sys2Proof.Laws
end

