-- ==== Sys2Proof/Laws/StorePlace.lean ====
section
/-! SUPPORT. Where each instruction stores (`storePlace`, Safety.lean), one lemma an instruction; MOVFF, MOVSF,
MOVSS and PUSHL, which have a line of their own in the definition, are unfolded. -/

namespace Sys2Proof.Machine

@[simp] theorem storePlace_nop (s : State) : storePlace .nop s = none := rfl

@[simp] theorem storePlace_sleep (s : State) : storePlace .sleep s = none := rfl

@[simp] theorem storePlace_clrwdt (s : State) : storePlace .clrwdt s = none := rfl

@[simp] theorem storePlace_push (s : State) : storePlace .push s = none := rfl

@[simp] theorem storePlace_pop (s : State) : storePlace .pop s = none := rfl

@[simp] theorem storePlace_daw (s : State) : storePlace .daw s = none := rfl

@[simp] theorem storePlace_tblrd (s : State) : storePlace .tblrd s = none := rfl

@[simp] theorem storePlace_tblrdPostInc (s : State) : storePlace .tblrdPostInc s = none := rfl

@[simp] theorem storePlace_tblrdPostDec (s : State) : storePlace .tblrdPostDec s = none := rfl

@[simp] theorem storePlace_tblrdPreInc (s : State) : storePlace .tblrdPreInc s = none := rfl

@[simp] theorem storePlace_tblwt (s : State) : storePlace .tblwt s = none := rfl

@[simp] theorem storePlace_tblwtPostInc (s : State) : storePlace .tblwtPostInc s = none := rfl

@[simp] theorem storePlace_tblwtPostDec (s : State) : storePlace .tblwtPostDec s = none := rfl

@[simp] theorem storePlace_tblwtPreInc (s : State) : storePlace .tblwtPreInc s = none := rfl

@[simp] theorem storePlace_retfie (fast : Bool) (s : State) : storePlace (.retfie fast) s = none := rfl

@[simp] theorem storePlace_ret (fast : Bool) (s : State) : storePlace (.ret fast) s = none := rfl

@[simp] theorem storePlace_callw (s : State) : storePlace .callw s = none := rfl

@[simp] theorem storePlace_reset (s : State) : storePlace .reset s = none := rfl

@[simp] theorem storePlace_movlb (k : Byte) (s : State) : storePlace (.movlb k) s = none := rfl

@[simp] theorem storePlace_mulwf (f : Byte) (a : Access) (s : State) : storePlace (.mulwf f a) s = none := rfl

@[simp] theorem storePlace_decf (f : Byte) (d : Dest) (a : Access) (s : State) :
    storePlace (.decf f d a) s = if (d == .file) = true then some (s.operand f a).1 else none := rfl

@[simp] theorem storePlace_sublw (k : Byte) (s : State) : storePlace (.sublw k) s = none := rfl

@[simp] theorem storePlace_iorlw (k : Byte) (s : State) : storePlace (.iorlw k) s = none := rfl

@[simp] theorem storePlace_xorlw (k : Byte) (s : State) : storePlace (.xorlw k) s = none := rfl

@[simp] theorem storePlace_andlw (k : Byte) (s : State) : storePlace (.andlw k) s = none := rfl

@[simp] theorem storePlace_retlw (k : Byte) (s : State) : storePlace (.retlw k) s = none := rfl

@[simp] theorem storePlace_mullw (k : Byte) (s : State) : storePlace (.mullw k) s = none := rfl

@[simp] theorem storePlace_movlw (k : Byte) (s : State) : storePlace (.movlw k) s = none := rfl

@[simp] theorem storePlace_addlw (k : Byte) (s : State) : storePlace (.addlw k) s = none := rfl

@[simp] theorem storePlace_iorwf (f : Byte) (d : Dest) (a : Access) (s : State) :
    storePlace (.iorwf f d a) s = if (d == .file) = true then some (s.operand f a).1 else none := rfl

@[simp] theorem storePlace_andwf (f : Byte) (d : Dest) (a : Access) (s : State) :
    storePlace (.andwf f d a) s = if (d == .file) = true then some (s.operand f a).1 else none := rfl

@[simp] theorem storePlace_xorwf (f : Byte) (d : Dest) (a : Access) (s : State) :
    storePlace (.xorwf f d a) s = if (d == .file) = true then some (s.operand f a).1 else none := rfl

@[simp] theorem storePlace_comf (f : Byte) (d : Dest) (a : Access) (s : State) :
    storePlace (.comf f d a) s = if (d == .file) = true then some (s.operand f a).1 else none := rfl

@[simp] theorem storePlace_addwfc (f : Byte) (d : Dest) (a : Access) (s : State) :
    storePlace (.addwfc f d a) s = if (d == .file) = true then some (s.operand f a).1 else none := rfl

@[simp] theorem storePlace_addwf (f : Byte) (d : Dest) (a : Access) (s : State) :
    storePlace (.addwf f d a) s = if (d == .file) = true then some (s.operand f a).1 else none := rfl

@[simp] theorem storePlace_incf (f : Byte) (d : Dest) (a : Access) (s : State) :
    storePlace (.incf f d a) s = if (d == .file) = true then some (s.operand f a).1 else none := rfl

@[simp] theorem storePlace_decfsz (f : Byte) (d : Dest) (a : Access) (s : State) :
    storePlace (.decfsz f d a) s = if (d == .file) = true then some (s.operand f a).1 else none := rfl

@[simp] theorem storePlace_rrcf (f : Byte) (d : Dest) (a : Access) (s : State) :
    storePlace (.rrcf f d a) s = if (d == .file) = true then some (s.operand f a).1 else none := rfl

@[simp] theorem storePlace_rlcf (f : Byte) (d : Dest) (a : Access) (s : State) :
    storePlace (.rlcf f d a) s = if (d == .file) = true then some (s.operand f a).1 else none := rfl

@[simp] theorem storePlace_swapf (f : Byte) (d : Dest) (a : Access) (s : State) :
    storePlace (.swapf f d a) s = if (d == .file) = true then some (s.operand f a).1 else none := rfl

@[simp] theorem storePlace_incfsz (f : Byte) (d : Dest) (a : Access) (s : State) :
    storePlace (.incfsz f d a) s = if (d == .file) = true then some (s.operand f a).1 else none := rfl

@[simp] theorem storePlace_rrncf (f : Byte) (d : Dest) (a : Access) (s : State) :
    storePlace (.rrncf f d a) s = if (d == .file) = true then some (s.operand f a).1 else none := rfl

@[simp] theorem storePlace_rlncf (f : Byte) (d : Dest) (a : Access) (s : State) :
    storePlace (.rlncf f d a) s = if (d == .file) = true then some (s.operand f a).1 else none := rfl

@[simp] theorem storePlace_infsnz (f : Byte) (d : Dest) (a : Access) (s : State) :
    storePlace (.infsnz f d a) s = if (d == .file) = true then some (s.operand f a).1 else none := rfl

@[simp] theorem storePlace_dcfsnz (f : Byte) (d : Dest) (a : Access) (s : State) :
    storePlace (.dcfsnz f d a) s = if (d == .file) = true then some (s.operand f a).1 else none := rfl

@[simp] theorem storePlace_movf (f : Byte) (d : Dest) (a : Access) (s : State) :
    storePlace (.movf f d a) s = if (d == .file) = true then some (s.operand f a).1 else none := rfl

@[simp] theorem storePlace_subfwb (f : Byte) (d : Dest) (a : Access) (s : State) :
    storePlace (.subfwb f d a) s = if (d == .file) = true then some (s.operand f a).1 else none := rfl

@[simp] theorem storePlace_subwfb (f : Byte) (d : Dest) (a : Access) (s : State) :
    storePlace (.subwfb f d a) s = if (d == .file) = true then some (s.operand f a).1 else none := rfl

@[simp] theorem storePlace_subwf (f : Byte) (d : Dest) (a : Access) (s : State) :
    storePlace (.subwf f d a) s = if (d == .file) = true then some (s.operand f a).1 else none := rfl

@[simp] theorem storePlace_cpfslt (f : Byte) (a : Access) (s : State) : storePlace (.cpfslt f a) s = none := rfl

@[simp] theorem storePlace_cpfseq (f : Byte) (a : Access) (s : State) : storePlace (.cpfseq f a) s = none := rfl

@[simp] theorem storePlace_cpfsgt (f : Byte) (a : Access) (s : State) : storePlace (.cpfsgt f a) s = none := rfl

@[simp] theorem storePlace_tstfsz (f : Byte) (a : Access) (s : State) : storePlace (.tstfsz f a) s = none := rfl

@[simp] theorem storePlace_setf (f : Byte) (a : Access) (s : State) :
    storePlace (.setf f a) s = some (s.operand f a).1 := rfl

@[simp] theorem storePlace_clrf (f : Byte) (a : Access) (s : State) :
    storePlace (.clrf f a) s = some (s.operand f a).1 := rfl

@[simp] theorem storePlace_negf (f : Byte) (a : Access) (s : State) :
    storePlace (.negf f a) s = some (s.operand f a).1 := rfl

@[simp] theorem storePlace_movwf (f : Byte) (a : Access) (s : State) :
    storePlace (.movwf f a) s = some (s.operand f a).1 := rfl

@[simp] theorem storePlace_btg (f : Byte) (b : BitVec 3) (a : Access) (s : State) :
    storePlace (.btg f b a) s = some (s.operand f a).1 := rfl

@[simp] theorem storePlace_bsf (f : Byte) (b : BitVec 3) (a : Access) (s : State) :
    storePlace (.bsf f b a) s = some (s.operand f a).1 := rfl

@[simp] theorem storePlace_bcf (f : Byte) (b : BitVec 3) (a : Access) (s : State) :
    storePlace (.bcf f b a) s = some (s.operand f a).1 := rfl

@[simp] theorem storePlace_btfss (f : Byte) (b : BitVec 3) (a : Access) (s : State) :
    storePlace (.btfss f b a) s = none := rfl

@[simp] theorem storePlace_btfsc (f : Byte) (b : BitVec 3) (a : Access) (s : State) :
    storePlace (.btfsc f b a) s = none := rfl

@[simp] theorem storePlace_bra (n : BitVec 11) (s : State) : storePlace (.bra n) s = none := rfl

@[simp] theorem storePlace_rcall (n : BitVec 11) (s : State) : storePlace (.rcall n) s = none := rfl

@[simp] theorem storePlace_bz (n : Byte) (s : State) : storePlace (.bz n) s = none := rfl

@[simp] theorem storePlace_bnz (n : Byte) (s : State) : storePlace (.bnz n) s = none := rfl

@[simp] theorem storePlace_bc (n : Byte) (s : State) : storePlace (.bc n) s = none := rfl

@[simp] theorem storePlace_bnc (n : Byte) (s : State) : storePlace (.bnc n) s = none := rfl

@[simp] theorem storePlace_bov (n : Byte) (s : State) : storePlace (.bov n) s = none := rfl

@[simp] theorem storePlace_bnov (n : Byte) (s : State) : storePlace (.bnov n) s = none := rfl

@[simp] theorem storePlace_bn (n : Byte) (s : State) : storePlace (.bn n) s = none := rfl

@[simp] theorem storePlace_bnn (n : Byte) (s : State) : storePlace (.bnn n) s = none := rfl

@[simp] theorem storePlace_addfsr (f : Fsr) (k : BitVec 6) (s : State) :
    storePlace (.addfsr f k) s = none := rfl

@[simp] theorem storePlace_addulnk (k : BitVec 6) (s : State) : storePlace (.addulnk k) s = none := rfl

@[simp] theorem storePlace_subfsr (f : Fsr) (k : BitVec 6) (s : State) :
    storePlace (.subfsr f k) s = none := rfl

@[simp] theorem storePlace_subulnk (k : BitVec 6) (s : State) : storePlace (.subulnk k) s = none := rfl

@[simp] theorem storePlace_call (k : BitVec 20) (fast : Bool) (s : State) :
    storePlace (.call k fast) s = none := rfl

@[simp] theorem storePlace_lfsr (f : Fsr) (k : BitVec 12) (s : State) : storePlace (.lfsr f k) s = none := rfl

@[simp] theorem storePlace_goto (k : BitVec 20) (s : State) : storePlace (.goto k) s = none := rfl

@[simp] theorem storePlace_nopF (x : BitVec 12) (s : State) : storePlace (.nopF x) s = none := rfl

end Sys2Proof.Machine
end

