-- ==== Sys2Proof/Tests/Slice0.lean ====
section
/-! SUPPORT. Tests of one step or one decoding each, with the expected values of the spec (95_test_vectors.md, or
the encodings of R100 written out bit by bit), and for every obligation with hypotheses a witness that meets
them. -/

open Sys2Proof Sys2Proof.Machine

namespace Sys2Proof.Tests

/-! ## WellFormed: what the XINST gate refuses (R104) -/

theorem test_wellFormed_refuses_addfsr : wellFormed false (.addfsr .fsr0 1#6) = false := by decide

theorem test_wellFormed_refuses_addulnk : wellFormed false (.addulnk 1#6) = false := by decide

theorem test_wellFormed_refuses_subfsr : wellFormed false (.subfsr .fsr2 1#6) = false := by decide

theorem test_wellFormed_refuses_subulnk : wellFormed false (.subulnk 1#6) = false := by decide

theorem test_wellFormed_refuses_pushl : wellFormed false (.pushl 1#8) = false := by decide

theorem test_wellFormed_refuses_movsf : wellFormed false (.movsf 1#7 0x020#12) = false := by decide

theorem test_wellFormed_refuses_movss : wellFormed false (.movss 1#7 2#7 0#5) = false := by decide

theorem test_wellFormed_refuses_callw : wellFormed false (.callw) = false := by decide

theorem test_wellFormed_accepts_with_xinst : wellFormed true .callw = true := by decide

/-! ## Decoding: for every constructor a word written out from its row of R100 -/

/-- The bytes of each word sequence decode to the instruction beside it, with nothing left over. -/
abbrev decodesAll (xinst : Bool) (rows : List (List Word × Instr)) : Prop :=
  ∀ r ∈ rows, decode xinst (wordsBytes r.1) = .ok (r.2, [])

/-- The fixed and table words: NOP, SLEEP, CLRWDT, PUSH, POP, DAW, TBLRD*, TBLRD*+, TBLRD*-, TBLRD+*, TBLWT*, TBLWT*+. -/
theorem test_decode_fixed1 : decodesAll false [
    ([0b0000000000000000#16], .nop),
    ([0b0000000000000011#16], .sleep),
    ([0b0000000000000100#16], .clrwdt),
    ([0b0000000000000101#16], .push),
    ([0b0000000000000110#16], .pop),
    ([0b0000000000000111#16], .daw),
    ([0b0000000000001000#16], .tblrd),
    ([0b0000000000001001#16], .tblrdPostInc),
    ([0b0000000000001010#16], .tblrdPostDec),
    ([0b0000000000001011#16], .tblrdPreInc),
    ([0b0000000000001100#16], .tblwt),
    ([0b0000000000001101#16], .tblwtPostInc)] := by decide

/-- The fixed and table words: TBLWT*-, TBLWT+*, RETFIE, RETURN, RESET, NOP. -/
theorem test_decode_fixed2 : decodesAll false [
    ([0b0000000000001110#16], .tblwtPostDec),
    ([0b0000000000001111#16], .tblwtPreInc),
    ([0b0000000000010001#16], .retfie true),
    ([0b0000000000010011#16], .ret true),
    ([0b0000000011111111#16], .reset),
    ([0b1111100000000001#16], .nopF 0b100000000001#12)] := by decide

/-- The literal words: MOVLB, SUBLW, IORLW, XORLW, ANDLW, RETLW, MULLW, MOVLW, ADDLW. -/
theorem test_decode_literal : decodesAll false [
    ([0b0000000111000101#16], .movlb 0b11000101#8),
    ([0b0000100011000101#16], .sublw 0b11000101#8),
    ([0b0000100111000101#16], .iorlw 0b11000101#8),
    ([0b0000101011000101#16], .xorlw 0b11000101#8),
    ([0b0000101111000101#16], .andlw 0b11000101#8),
    ([0b0000110011000101#16], .retlw 0b11000101#8),
    ([0b0000110111000101#16], .mullw 0b11000101#8),
    ([0b0000111011000101#16], .movlw 0b11000101#8),
    ([0b0000111111000101#16], .addlw 0b11000101#8)] := by decide

/-- The words with a d bit: DECF, IORWF, ANDWF, XORWF, COMF, ADDWFC, ADDWF, INCF, DECFSZ, RRCF, RLCF, SWAPF. -/
theorem test_decode_byte1 : decodesAll false [
    ([0b0000010010011100#16], .decf 0b10011100#8 .wreg .access),
    ([0b0001001110011100#16], .iorwf 0b10011100#8 .file .banked),
    ([0b0001010110011100#16], .andwf 0b10011100#8 .wreg .banked),
    ([0b0001101010011100#16], .xorwf 0b10011100#8 .file .access),
    ([0b0001110010011100#16], .comf 0b10011100#8 .wreg .access),
    ([0b0010001110011100#16], .addwfc 0b10011100#8 .file .banked),
    ([0b0010010110011100#16], .addwf 0b10011100#8 .wreg .banked),
    ([0b0010101010011100#16], .incf 0b10011100#8 .file .access),
    ([0b0010110010011100#16], .decfsz 0b10011100#8 .wreg .access),
    ([0b0011001110011100#16], .rrcf 0b10011100#8 .file .banked),
    ([0b0011010110011100#16], .rlcf 0b10011100#8 .wreg .banked),
    ([0b0011101010011100#16], .swapf 0b10011100#8 .file .access)] := by decide

/-- The words with a d bit: INCFSZ, RRNCF, RLNCF, INFSNZ, DCFSNZ, MOVF, SUBFWB, SUBWFB, SUBWF. -/
theorem test_decode_byte2 : decodesAll false [
    ([0b0011110010011100#16], .incfsz 0b10011100#8 .wreg .access),
    ([0b0100001110011100#16], .rrncf 0b10011100#8 .file .banked),
    ([0b0100010110011100#16], .rlncf 0b10011100#8 .wreg .banked),
    ([0b0100101010011100#16], .infsnz 0b10011100#8 .file .access),
    ([0b0100110010011100#16], .dcfsnz 0b10011100#8 .wreg .access),
    ([0b0101001110011100#16], .movf 0b10011100#8 .file .banked),
    ([0b0101010110011100#16], .subfwb 0b10011100#8 .wreg .banked),
    ([0b0101101010011100#16], .subwfb 0b10011100#8 .file .access),
    ([0b0101110010011100#16], .subwf 0b10011100#8 .wreg .access)] := by decide

/-- The words with an a bit only: MULWF, CPFSLT, CPFSEQ, CPFSGT, TSTFSZ, SETF, CLRF, NEGF, MOVWF. -/
theorem test_decode_byteA : decodesAll false [
    ([0b0000001010011100#16], .mulwf 0b10011100#8 .access),
    ([0b0110000110011100#16], .cpfslt 0b10011100#8 .banked),
    ([0b0110001110011100#16], .cpfseq 0b10011100#8 .banked),
    ([0b0110010010011100#16], .cpfsgt 0b10011100#8 .access),
    ([0b0110011010011100#16], .tstfsz 0b10011100#8 .access),
    ([0b0110100110011100#16], .setf 0b10011100#8 .banked),
    ([0b0110101110011100#16], .clrf 0b10011100#8 .banked),
    ([0b0110110010011100#16], .negf 0b10011100#8 .access),
    ([0b0110111010011100#16], .movwf 0b10011100#8 .access)] := by decide

/-- The bit words: BTG, BSF, BCF, BTFSS, BTFSC. -/
theorem test_decode_bit : decodesAll false [
    ([0b0111000110011100#16], .btg 0b10011100#8 0b000#3 .banked),
    ([0b1000011110011100#16], .bsf 0b10011100#8 0b011#3 .banked),
    ([0b1001101010011100#16], .bcf 0b10011100#8 0b101#3 .access),
    ([0b1010010010011100#16], .btfss 0b10011100#8 0b010#3 .access),
    ([0b1011111110011100#16], .btfsc 0b10011100#8 0b111#3 .banked)] := by decide

/-- The relative branches: BRA, RCALL, BZ, BNZ, BC, BNC, BOV, BNOV, BN, BNN. -/
theorem test_decode_branch : decodesAll false [
    ([0b1101010000110010#16], .bra 0b10000110010#11),
    ([0b1101110000110010#16], .rcall 0b10000110010#11),
    ([0b1110000010000110#16], .bz 0b10000110#8),
    ([0b1110000110000110#16], .bnz 0b10000110#8),
    ([0b1110001010000110#16], .bc 0b10000110#8),
    ([0b1110001110000110#16], .bnc 0b10000110#8),
    ([0b1110010010000110#16], .bov 0b10000110#8),
    ([0b1110010110000110#16], .bnov 0b10000110#8),
    ([0b1110011010000110#16], .bn 0b10000110#8),
    ([0b1110011110000110#16], .bnn 0b10000110#8)] := by decide

/-- The extended set: CALLW, ADDFSR, ADDULNK, SUBFSR, SUBULNK, PUSHL, MOVSF, MOVSS. -/
theorem test_decode_extended : decodesAll true [
    ([0b0000000000010100#16], .callw),
    ([0b1110100001100110#16], .addfsr .fsr1 0b100110#6),
    ([0b1110100011100110#16], .addulnk 0b100110#6),
    ([0b1110100101100110#16], .subfsr .fsr1 0b100110#6),
    ([0b1110100111100110#16], .subulnk 0b100110#6),
    ([0b1110101011000101#16], .pushl 0b11000101#8),
    ([0b1110101100100011#16, 0b1111101010111100#16], .movsf 0b0100011#7 0b101010111100#12),
    ([0b1110101110100011#16, 0b1111100101011100#16], .movss 0b0100011#7 0b1011100#7 0b10010#5)] := by decide

/-- The two-word instructions: MOVFF, CALL, LFSR, GOTO. -/
theorem test_decode_twoWord : decodesAll false [
    ([0b1100000100100011#16, 0b1111101010111100#16], .movff 0b000100100011#12 0b101010111100#12),
    ([0b1110110110010110#16, 0b1111000111100101#16], .call 0b00011110010110010110#20 true),
    ([0b1110111000100110#16, 0b1111000010100011#16], .lfsr .fsr2 0b011010100011#12),
    ([0b1110111110010110#16, 0b1111000111100101#16], .goto 0b00011110010110010110#20)] := by decide

/-! ## One step: the spec's worked examples and vectors -/

/-- The flags C DC Z OV N, in the order of 95_test_vectors.md. -/
def fl (v : Nat) : Flags :=
  { c := v.testBit 4, dc := v.testBit 3, z := v.testBit 2, ov := v.testBit 1, n := v.testBit 0 }

/-- The machine after reset with these words at 000100h and its PC there. -/
def machine (ws : List Word) : State :=
  { State.reset with prog := loadBytes [] 0x100#21 (wordsBytes ws), pc := 0x100#21 }

/-- The same with the extended set enabled. -/
def machineX (ws : List Word) : State :=
  { machine ws with cfg := { Config.pic18f4520 with xinst := true } }

/-- The state after one step. -/
def after (s : State) : Option State :=
  match step s with
  | .next t => some t
  | .fault _ | .refused _ => none

/-- The fault one step ends in. -/
def faultOf (s : State) : Option Fault :=
  match step s with
  | .fault e => some e
  | .next _ | .refused _ => none

/-- ADDWF, ISS example. -/
theorem test_addwf :
    (after { machine [0x2420#16] with
        w := 0x17#8, flags := fl 0b00000, ram := [(0x020, 0xC2#8)] }).map
        (fun t => (t.w, t.ramByte 0x020#12, t.flags))
      = some (0xD9#8, 0xC2#8, fl 0b00001) := by decide

/-- ADDWFC, ISS example. -/
theorem test_addwfc :
    (after { machine [0x2120#16] with
        w := 0x4D#8, flags := fl 0b10000, ram := [(0x020, 0x02#8)] }).map
        (fun t => (t.w, t.ramByte 0x020#12, t.flags))
      = some (0x50#8, 0x02#8, fl 0b01000) := by decide

/-- ANDWF, V40-6: C, DC, OV kept. -/
theorem test_andwf :
    (after { machine [0x1620#16] with
        w := 0x0F#8, flags := fl 0b11010, ram := [(0x020, 0xF0#8)] }).map
        (fun t => (t.w, t.ramByte 0x020#12, t.flags))
      = some (0x0F#8, 0x00#8, fl 0b11110) := by decide

/-- CLRF, V40-30. -/
theorem test_clrf :
    (after { machine [0x6A20#16] with
        w := 0x00#8, flags := fl 0b11011, ram := [(0x020, 0x5A#8)] }).map
        (fun t => (t.w, t.ramByte 0x020#12, t.flags))
      = some (0x00#8, 0x00#8, fl 0b11111) := by decide

/-- COMF, ISS example. -/
theorem test_comf :
    (after { machine [0x1C20#16] with
        w := 0x00#8, flags := fl 0b11110, ram := [(0x020, 0x13#8)] }).map
        (fun t => (t.w, t.ramByte 0x020#12, t.flags))
      = some (0xEC#8, 0x13#8, fl 0b11011) := by decide

/-- DECF, V40-10. -/
theorem test_decf :
    (after { machine [0x0620#16] with
        w := 0x00#8, flags := fl 0b11110, ram := [(0x020, 0x00#8)] }).map
        (fun t => (t.w, t.ramByte 0x020#12, t.flags))
      = some (0x00#8, 0xFF#8, fl 0b00001) := by decide

/-- DECF, V40-11. -/
theorem test_decf_overflow :
    (after { machine [0x0420#16] with
        w := 0x00#8, flags := fl 0b00000, ram := [(0x020, 0x80#8)] }).map
        (fun t => (t.w, t.ramByte 0x020#12, t.flags))
      = some (0x7F#8, 0x80#8, fl 0b10010) := by decide

/-- INCF, V40-13. -/
theorem test_incf :
    (after { machine [0x2820#16] with
        w := 0x00#8, flags := fl 0b10100, ram := [(0x020, 0x7F#8)] }).map
        (fun t => (t.w, t.ramByte 0x020#12, t.flags))
      = some (0x80#8, 0x7F#8, fl 0b01011) := by decide

/-- IORWF, ISS example (REG = 020h, BSR = 0). -/
theorem test_iorwf :
    (after { machine [0x1120#16] with
        w := 0x91#8, flags := fl 0b00000, ram := [(0x020, 0x13#8)] }).map
        (fun t => (t.w, t.ramByte 0x020#12, t.flags))
      = some (0x93#8, 0x13#8, fl 0b00001) := by decide

/-- MOVF, V40-29. -/
theorem test_movf :
    (after { machine [0x5220#16] with
        w := 0x55#8, flags := fl 0b11011, ram := [(0x020, 0x00#8)] }).map
        (fun t => (t.w, t.ramByte 0x020#12, t.flags))
      = some (0x55#8, 0x00#8, fl 0b11110) := by decide

/-- MOVFF, V40-33: BSR plays no part. -/
theorem test_movff :
    (after { machine [0xC020#16, 0xF021#16] with
        bsr := 5#4, ram := [(0x020, 0x77#8)] }).map
        (fun t => (t.ramByte 0x021#12, t.ramByte 0x020#12, t.pc))
      = some (0x77#8, 0x77#8, 0x104#21) := by decide

/-- MOVWF, ISS example. -/
theorem test_movwf :
    (after { machine [0x6E20#16] with
        w := 0x4F#8, flags := fl 0b11011, ram := [(0x020, 0xFF#8)] }).map
        (fun t => (t.w, t.ramByte 0x020#12, t.flags))
      = some (0x4F#8, 0x4F#8, fl 0b11011) := by decide

/-- MULWF, V40-27. -/
theorem test_mulwf :
    (after { machine [0x0220#16] with
        w := 0xFF#8, ram := [(0x020, 0xFF#8)] }).map
        (fun t => (t.prodh, t.prodl, t.w, t.flags))
      = some (0xFE#8, 0x01#8, 0xFF#8, fl 0b00000) := by decide

/-- NEGF, V40-14. -/
theorem test_negf :
    (after { machine [0x6C20#16] with
        w := 0x00#8, flags := fl 0b00000, ram := [(0x020, 0x80#8)] }).map
        (fun t => (t.w, t.ramByte 0x020#12, t.flags))
      = some (0x00#8, 0x80#8, fl 0b01011) := by decide

/-- RLCF, V40-21. -/
theorem test_rlcf :
    (after { machine [0x3620#16] with
        w := 0x00#8, flags := fl 0b01010, ram := [(0x020, 0x80#8)] }).map
        (fun t => (t.w, t.ramByte 0x020#12, t.flags))
      = some (0x00#8, 0x00#8, fl 0b11110) := by decide

/-- RLNCF, V40-24. -/
theorem test_rlncf :
    (after { machine [0x4620#16] with
        w := 0x00#8, flags := fl 0b10000, ram := [(0x020, 0x80#8)] }).map
        (fun t => (t.w, t.ramByte 0x020#12, t.flags))
      = some (0x00#8, 0x01#8, fl 0b10000) := by decide

/-- RRCF, V40-23. -/
theorem test_rrcf :
    (after { machine [0x3220#16] with
        w := 0x00#8, flags := fl 0b10000, ram := [(0x020, 0x00#8)] }).map
        (fun t => (t.w, t.ramByte 0x020#12, t.flags))
      = some (0x00#8, 0x80#8, fl 0b00001) := by decide

/-- RRNCF, ISS example 2. -/
theorem test_rrncf :
    (after { machine [0x4020#16] with
        w := 0x00#8, flags := fl 0b10000, ram := [(0x020, 0xD7#8)] }).map
        (fun t => (t.w, t.ramByte 0x020#12, t.flags))
      = some (0xEB#8, 0xD7#8, fl 0b10001) := by decide

/-- SETF, V40-31. -/
theorem test_setf :
    (after { machine [0x6820#16] with
        w := 0x00#8, flags := fl 0b10101, ram := [(0x020, 0x00#8)] }).map
        (fun t => (t.w, t.ramByte 0x020#12, t.flags))
      = some (0x00#8, 0xFF#8, fl 0b10101) := by decide

/-- SUBFWB, ISS example 1. -/
theorem test_subfwb :
    (after { machine [0x5620#16] with
        w := 0x02#8, flags := fl 0b10000, ram := [(0x020, 0x03#8)] }).map
        (fun t => (t.w, t.ramByte 0x020#12, t.flags))
      = some (0x02#8, 0xFF#8, fl 0b00001) := by decide

/-- SUBFWB, ISS example 3. -/
theorem test_subfwb_zero :
    (after { machine [0x5620#16] with
        w := 0x02#8, flags := fl 0b00000, ram := [(0x020, 0x01#8)] }).map
        (fun t => (t.w, t.ramByte 0x020#12, t.flags))
      = some (0x02#8, 0x00#8, fl 0b11100) := by decide

/-- SUBWF, V40-18. -/
theorem test_subwf :
    (after { machine [0x5E20#16] with
        w := 0xFF#8, flags := fl 0b00000, ram := [(0x020, 0x7F#8)] }).map
        (fun t => (t.w, t.ramByte 0x020#12, t.flags))
      = some (0xFF#8, 0x80#8, fl 0b01011) := by decide

/-- SUBWFB, V40-20. -/
theorem test_subwfb :
    (after { machine [0x5A20#16] with
        w := 0xFF#8, flags := fl 0b00000, ram := [(0x020, 0x00#8)] }).map
        (fun t => (t.w, t.ramByte 0x020#12, t.flags))
      = some (0xFF#8, 0x00#8, fl 0b00100) := by decide

/-- SUBWFB, ISS example 1. -/
theorem test_subwfb_iss :
    (after { machine [0x5A20#16] with
        w := 0x0D#8, flags := fl 0b10000, ram := [(0x020, 0x19#8)] }).map
        (fun t => (t.w, t.ramByte 0x020#12, t.flags))
      = some (0x0D#8, 0x0C#8, fl 0b10000) := by decide

/-- SWAPF, V40-26. -/
theorem test_swapf :
    (after { machine [0x3820#16] with
        w := 0x00#8, flags := fl 0b11111, ram := [(0x020, 0xF0#8)] }).map
        (fun t => (t.w, t.ramByte 0x020#12, t.flags))
      = some (0x0F#8, 0xF0#8, fl 0b11111) := by decide

/-- XORWF, ISS example. -/
theorem test_xorwf :
    (after { machine [0x1A20#16] with
        w := 0xB5#8, flags := fl 0b00000, ram := [(0x020, 0xAF#8)] }).map
        (fun t => (t.w, t.ramByte 0x020#12, t.flags))
      = some (0xB5#8, 0x1A#8, fl 0b00000) := by decide

/-- INCF POSTINC0, V20-11: addressed once. -/
theorem test_postinc :
    (after { machine [0x2AEE#16] with
        fsr0 := 0x120#12, ram := [(0x120, 0x07#8)] }).map
        (fun t => (t.ramByte 0x120#12, t.fsr0))
      = some (0x08#8, 0x121#12) := by decide

/-- MOVF PLUSW0, V20-12: W is signed. -/
theorem test_plusw :
    (after { machine [0x50EB#16] with
        w := 0xFF#8, fsr0 := 0x121#12, ram := [(0x120, 0x08#8)] }).map
        (fun t => (t.w, t.fsr0))
      = some (0x08#8, 0x121#12) := by decide

/-- MOVFF PCL, VF-4. -/
theorem test_read_pcl :
    (after (machine [0xCFF9#16, 0xF020#16])).map
        (fun t => (t.ramByte 0x020#12, t.pclath, t.pclatu, t.pc))
      = some (0x02#8, 0x01#8, 0x00#5, 0x104#21) := by decide

/-- ADDWF PCL, V43-12: the read loads the latches, the write the PC. -/
theorem test_write_pcl :
    (after { machine [0x26F9#16] with
        w := 0x04#8, pclath := 0xFF#8, pclatu := 0x1F#5 }).map
        (fun t => (t.pc, t.pclath, t.pclatu))
      = some (0x106#21, 0x01#8, 0x00#5) := by decide

/-- COMF (R62): BSR selects the bank. -/
theorem test_comf_banked :
    (after { machine [0x1F20#16] with
        bsr := 2#4, ram := [(0x020, 0x00#8), (0x220, 0x0F#8)] }).map
        (fun t => (t.ramByte 0x220#12, t.ramByte 0x020#12))
      = some (0xF0#8, 0x00#8) := by decide

/-- ANDWF PREINC1 (R69): modulo 4096. -/
theorem test_andwf_preinc :
    (after { machine [0x14E4#16] with
        w := 0xFF#8, fsr1 := 0xFFF#12, ram := [(0x000, 0x3C#8)] }).map
        (fun t => (t.w, t.fsr1))
      = some (0x3C#8, 0x000#12) := by decide

/-- XORWF FSR0H (R67): the upper four bits do not exist. -/
theorem test_xorwf_fsr0h :
    (after { machine [0x1AEA#16] with
        w := 0xF3#8, fsr0 := 0x055#12 }).map
        (fun t => t.fsr0)
      = some (0x355#12) := by decide

/-- RLNCF TOSH (R32). -/
theorem test_rlncf_tosh :
    (after { machine [0x46FE#16] with
        stack := [0x012344#21] }).map
        (fun t => t.stack)
      = some [0x014644#21] := by decide

/-- ADDWFC STATUS (R68 (e)): the flags win. -/
theorem test_addwfc_status :
    (after { machine [0x22D8#16] with
        w := 0xFF#8 }).map
        (fun t => t.flags)
      = some (fl 0b00001) := by decide

/-- SETF 82h (R74): an output event. -/
theorem test_setf_peripheral :
    (after (machine [0x6882#16])).map
        (fun t => t.outputs)
      = some [(0xF82, 0xFF#8)] := by decide

/-- CPFSEQ, V41-3: over a two-word instruction. -/
theorem test_cpfseq :
    (after { machine [0x6220#16, 0xEF80#16] with
        w := 0x55#8, ram := [(0x020, 0x55#8)] }).map
        (fun t => t.pc)
      = some (0x106#21) := by decide

/-- CPFSGT, V41-7: unsigned. -/
theorem test_cpfsgt :
    (after { machine [0x6420#16, 0x0000#16] with
        w := 0x7F#8, ram := [(0x020, 0x80#8)] }).map
        (fun t => t.pc)
      = some (0x104#21) := by decide

/-- CPFSGT, V41-8. -/
theorem test_cpfsgt_equal :
    (after { machine [0x6420#16, 0x0000#16] with
        w := 0x7F#8, ram := [(0x020, 0x7F#8)] }).map
        (fun t => t.pc)
      = some (0x102#21) := by decide

/-- CPFSLT, V41-9: unsigned. -/
theorem test_cpfslt :
    (after { machine [0x6020#16, 0x0000#16] with
        w := 0xFF#8, ram := [(0x020, 0x00#8)] }).map
        (fun t => t.pc)
      = some (0x104#21) := by decide

/-- CPFSLT, as V41-5: EB05h is one word with XINST = 0. -/
theorem test_cpfslt_extended_word_off :
    (after { machine [0x6020#16, 0xEB05#16] with
        w := 0xFF#8, ram := [(0x020, 0x00#8)] }).map
        (fun t => t.pc)
      = some (0x104#21) := by decide

/-- DECFSZ, V41-11. -/
theorem test_decfsz :
    (after { machine [0x2E20#16, 0x0000#16] with
        flags := fl 0b11011, ram := [(0x020, 0x01#8)] }).map
        (fun t => (t.pc, t.ramByte 0x020#12, t.flags))
      = some (0x104#21, 0x00#8, fl 0b11011) := by decide

/-- DECFSZ, V41-12. -/
theorem test_decfsz_no_skip :
    (after { machine [0x2E20#16, 0x0000#16] with
        ram := [(0x020, 0x00#8)] }).map
        (fun t => (t.pc, t.ramByte 0x020#12))
      = some (0x102#21, 0xFF#8) := by decide

/-- DCFSNZ, V41-14. -/
theorem test_dcfsnz :
    (after { machine [0x4E20#16, 0x0000#16] with
        ram := [(0x020, 0x02#8)] }).map
        (fun t => (t.pc, t.ramByte 0x020#12))
      = some (0x104#21, 0x01#8) := by decide

/-- DCFSNZ, V41-13. -/
theorem test_dcfsnz_no_skip :
    (after { machine [0x4E20#16, 0x0000#16] with
        ram := [(0x020, 0x01#8)] }).map
        (fun t => (t.pc, t.ramByte 0x020#12))
      = some (0x102#21, 0x00#8) := by decide

/-- INCFSZ, V41-15. -/
theorem test_incfsz :
    (after { machine [0x3E20#16, 0x0000#16] with
        ram := [(0x020, 0xFF#8)] }).map
        (fun t => (t.pc, t.ramByte 0x020#12, t.flags))
      = some (0x104#21, 0x00#8, fl 0b00000) := by decide

/-- INFSNZ, V41-16. -/
theorem test_infsnz :
    (after { machine [0x4820#16, 0x0000#16] with
        w := 0x11#8, ram := [(0x020, 0xFF#8)] }).map
        (fun t => (t.pc, t.w, t.ramByte 0x020#12))
      = some (0x102#21, 0x00#8, 0xFF#8) := by decide

/-- TSTFSZ, V41-17. -/
theorem test_tstfsz :
    (after { machine [0x6620#16, 0x0000#16] with
        ram := [(0x020, 0x00#8)] }).map
        (fun t => t.pc)
      = some (0x104#21) := by decide

/-- BTFSC, V41-18. -/
theorem test_btfsc :
    (after { machine [0xBF20#16, 0x0000#16] with
        bsr := 1#4, ram := [(0x120, 0x7F#8)] }).map
        (fun t => t.pc)
      = some (0x104#21) := by decide

/-- BTFSS, V41-20. -/
theorem test_btfss :
    (after { machine [0xA220#16, 0xD7FF#16] with
        ram := [(0x020, 0xFD#8)] }).map
        (fun t => t.pc)
      = some (0x102#21) := by decide

/-- BTFSS, V41-19. -/
theorem test_btfss_skip :
    (after { machine [0xA220#16, 0xD7FF#16] with
        ram := [(0x020, 0x02#8)] }).map
        (fun t => t.pc)
      = some (0x104#21) := by decide

/-- CPFSEQ, V41-6: EB05h is two words with XINST = 1. -/
theorem test_skip_extended_word_on :
    (after { machineX [0x6320#16, 0xEB05#16] with
        w := 0x55#8, ram := [(0x020, 0x55#8)] }).map
        (fun t => t.pc)
      = some (0x106#21) := by decide

/-- BCF, ISS example. -/
theorem test_bcf :
    (after { machine [0x9E20#16] with
        flags := fl 0b10101, ram := [(0x020, 0xC7#8)] }).map
        (fun t => (t.w, t.ramByte 0x020#12, t.flags))
      = some (0x00#8, 0x47#8, fl 0b10101) := by decide

/-- BSF, ISS example. -/
theorem test_bsf :
    (after { machine [0x8F20#16] with
        flags := fl 0b10101, ram := [(0x020, 0x0A#8)] }).map
        (fun t => (t.w, t.ramByte 0x020#12, t.flags))
      = some (0x00#8, 0x8A#8, fl 0b10101) := by decide

/-- BTG, V42-4. -/
theorem test_btg :
    (after { machine [0x7E20#16] with
        flags := fl 0b10101, ram := [(0x020, 0x80#8)] }).map
        (fun t => (t.w, t.ramByte 0x020#12, t.flags))
      = some (0x00#8, 0x00#8, fl 0b10101) := by decide

/-- BC, R169: taken. -/
theorem test_bc_taken :
    (after { machine [0xE205#16] with
        flags := fl 0b10000 }).map
        (fun t => t.pc)
      = some (0x10C#21) := by decide

/-- BC, R169: not taken. -/
theorem test_bc_not_taken :
    (after { machine [0xE205#16] with
        flags := fl 0b01111 }).map
        (fun t => t.pc)
      = some (0x102#21) := by decide

/-- BNC, R169: taken. -/
theorem test_bnc_taken :
    (after { machine [0xE305#16] with
        flags := fl 0b01111 }).map
        (fun t => t.pc)
      = some (0x10C#21) := by decide

/-- BNC, R169: not taken. -/
theorem test_bnc_not_taken :
    (after { machine [0xE305#16] with
        flags := fl 0b10000 }).map
        (fun t => t.pc)
      = some (0x102#21) := by decide

/-- BN, R169: taken. -/
theorem test_bn_taken :
    (after { machine [0xE605#16] with
        flags := fl 0b00001 }).map
        (fun t => t.pc)
      = some (0x10C#21) := by decide

/-- BN, R169: not taken. -/
theorem test_bn_not_taken :
    (after { machine [0xE605#16] with
        flags := fl 0b11110 }).map
        (fun t => t.pc)
      = some (0x102#21) := by decide

/-- BNN, R169: taken. -/
theorem test_bnn_taken :
    (after { machine [0xE705#16] with
        flags := fl 0b11110 }).map
        (fun t => t.pc)
      = some (0x10C#21) := by decide

/-- BNN, R169: not taken. -/
theorem test_bnn_not_taken :
    (after { machine [0xE705#16] with
        flags := fl 0b00001 }).map
        (fun t => t.pc)
      = some (0x102#21) := by decide

/-- BOV, R169: taken. -/
theorem test_bov_taken :
    (after { machine [0xE405#16] with
        flags := fl 0b00010 }).map
        (fun t => t.pc)
      = some (0x10C#21) := by decide

/-- BOV, R169: not taken. -/
theorem test_bov_not_taken :
    (after { machine [0xE405#16] with
        flags := fl 0b11101 }).map
        (fun t => t.pc)
      = some (0x102#21) := by decide

/-- BNOV, R169: taken. -/
theorem test_bnov_taken :
    (after { machine [0xE505#16] with
        flags := fl 0b11101 }).map
        (fun t => t.pc)
      = some (0x10C#21) := by decide

/-- BNOV, R169: not taken. -/
theorem test_bnov_not_taken :
    (after { machine [0xE505#16] with
        flags := fl 0b00010 }).map
        (fun t => t.pc)
      = some (0x102#21) := by decide

/-- BZ, R169: taken. -/
theorem test_bz_taken :
    (after { machine [0xE080#16] with
        flags := fl 0b00100 }).map
        (fun t => t.pc)
      = some (0x002#21) := by decide

/-- BZ, R169: not taken. -/
theorem test_bz_not_taken :
    (after { machine [0xE080#16] with
        flags := fl 0b11011 }).map
        (fun t => t.pc)
      = some (0x102#21) := by decide

/-- BNZ, R169: taken. -/
theorem test_bnz_taken :
    (after { machine [0xE1FF#16] with
        flags := fl 0b11011 }).map
        (fun t => t.pc)
      = some (0x100#21) := by decide

/-- BNZ, R169: not taken. -/
theorem test_bnz_not_taken :
    (after { machine [0xE1FF#16] with
        flags := fl 0b00100 }).map
        (fun t => t.pc)
      = some (0x102#21) := by decide

/-- BRA, V43-5. -/
theorem test_bra :
    (after (machine [0xD3FF#16])).map
        (fun t => t.pc)
      = some (0x900#21) := by decide

/-- BRA, V43-7. -/
theorem test_bra_back :
    (after (machine [0xD7FF#16])).map
        (fun t => t.pc)
      = some (0x100#21) := by decide

/-- RCALL, V43-9. -/
theorem test_rcall :
    (after (machine [0xDFFF#16])).map
        (fun t => (t.pc, t.stack))
      = some (0x100#21, [0x102#21]) := by decide

/-- CALL, V43-10. -/
theorem test_call :
    (after (machine [0xEC00#16, 0xF001#16])).map
        (fun t => (t.pc, t.stack, t.ws))
      = some (0x200#21, [0x104#21], 0x00#8) := by decide

/-- CALL, V43-25. -/
theorem test_call_fast :
    (after { machine [0xED80#16, 0xF000#16] with
        w := 0xA5#8, bsr := 2#4, flags := fl 0b10101 }).map
        (fun t => (t.pc, t.stack, t.ws, t.bsrs, t.statuss))
      = some (0x100#21, [0x104#21], 0xA5#8, 0x02#8, 0x15#8) := by decide

/-- CLRWDT, VS-5. -/
theorem test_clrwdt :
    (after { machine [0x0004#16] with
        rcon := 0x00#8, wdt := 3, wdtPost := 4 }).map
        (fun t => (t.rcon, t.wdt, t.wdtPost))
      = some (0x0C#8, 0, 0) := by decide

/-- DAW, V43-17. -/
theorem test_daw :
    (after { machine [0x0007#16] with
        w := 0xC1#8, flags := fl 0b01000 }).map
        (fun t => (t.w, t.flags))
      = some (0x27#8, fl 0b11000) := by decide

/-- DAW, V43-18. -/
theorem test_daw_sticky :
    (after { machine [0x0007#16] with
        w := 0x32#8, flags := fl 0b11000 }).map
        (fun t => (t.w, t.flags))
      = some (0x98#8, fl 0b11000) := by decide

/-- GOTO, V43-24. -/
theorem test_goto :
    (after (machine [0xEFFF#16, 0xFFFF#16])).map
        (fun t => t.pc)
      = some (0x1FFFFE#21) := by decide

/-- NOP, R184. -/
theorem test_nop :
    (after { machine [0x0000#16] with
        flags := fl 0b10110 }).map
        (fun t => (t.pc, t.flags, t.stack))
      = some (0x102#21, fl 0b10110, []) := by decide

/-- NOP, V43-23. -/
theorem test_nopF :
    (after { machine [0xF123#16] with
        flags := fl 0b10110 }).map
        (fun t => (t.pc, t.flags, t.stack))
      = some (0x102#21, fl 0b10110, []) := by decide

/-- POP, ISS example. -/
theorem test_pop :
    (after { machine [0x0006#16] with
        stack := [0x0031A2#21, 0x014332#21] }).map
        (fun t => (t.stack, t.pc))
      = some ([0x014332#21], 0x102#21) := by decide

/-- PUSH, ISS example (at 0100h). -/
theorem test_push :
    (after { machine [0x0005#16] with
        stack := [0x00345A#21] }).map
        (fun t => (t.stack, t.pc))
      = some ([0x102#21, 0x00345A#21], 0x102#21) := by decide

/-- RESET, VR-1: what it loads. -/
theorem test_reset :
    (after { machine [0x00FF#16] with
        bsr := 5#4, pclath := 0x12#8, stack := [0x44#21], intcon := 0xC0#8 }).map
        (fun t => (t.pc, t.stack, t.bsr, t.pclath, t.intcon))
      = some (0x000#21, [], 0#4, 0x00#8, 0x00#8) := by decide

/-- RESET, VR-1: what it keeps. -/
theorem test_reset_keeps :
    (after { machine [0x00FF#16] with
        w := 0x77#8, flags := fl 0b10101, fsr1 := 0x3AB#12, ram := [(0x020, 0x12#8)] }).map
        (fun t => (t.w, t.flags, t.fsr1, t.ramByte 0x020#12))
      = some (0x77#8, fl 0b10101, 0x0AB#12, 0x12#8) := by decide

/-- RETFIE, VI-6: in the low handler. -/
theorem test_retfie :
    (after { machine [0x0010#16] with
        stack := [0x40#21], intcon := 0x80#8, rcon := 0x80#8 }).map
        (fun t => (t.pc, t.intcon, t.stack))
      = some (0x40#21, 0xC0#8, []) := by decide

/-- RETFIE, ISS example. -/
theorem test_retfie_fast :
    (after { machine [0x0011#16] with
        stack := [0x40#21], ws := 0x12#8, bsrs := 0x03#8, statuss := 0x1F#8 }).map
        (fun t => (t.pc, t.w, t.bsr, t.flags, t.intcon))
      = some (0x40#21, 0x12#8, 3#4, fl 0b11111, 0x80#8) := by decide

/-- RETLW, V43-12. -/
theorem test_retlw :
    (after { machine [0x0C43#16] with
        stack := [0x12#21] }).map
        (fun t => (t.pc, t.w, t.stack))
      = some (0x12#21, 0x43#8, []) := by decide

/-- RETURN, V43-13. -/
theorem test_return_fast :
    (after { machine [0x0013#16] with
        stack := [0x44#21], ws := 0x11#8, statuss := 0x1F#8, bsrs := 0x03#8 }).map
        (fun t => (t.pc, t.w, t.flags, t.bsr))
      = some (0x44#21, 0x11#8, fl 0b11111, 3#4) := by decide

/-- RETURN, ISS example. -/
theorem test_return :
    (after { machine [0x0012#16] with
        stack := [0x44#21], ws := 0x11#8 }).map
        (fun t => (t.pc, t.w, t.stack))
      = some (0x44#21, 0x00#8, []) := by decide

/-- SLEEP, V43-22. -/
theorem test_sleep :
    (after { machine [0x0003#16] with
        rcon := 0x04#8 }).map
        (fun t => (t.rcon, t.asleep, t.pc))
      = some (0x08#8, true, 0x102#21) := by decide

/-- ADDLW, V44-1. -/
theorem test_addlw :
    (after { machine [0x0F80#16] with
        w := 0x80#8, flags := fl 0b00000 }).map
        (fun t => (t.w, t.flags))
      = some (0x00#8, fl 0b10110) := by decide

/-- ANDLW, ISS example. -/
theorem test_andlw :
    (after { machine [0x0B5F#16] with
        w := 0xA3#8, flags := fl 0b11111 }).map
        (fun t => (t.w, t.flags))
      = some (0x03#8, fl 0b11010) := by decide

/-- IORLW, ISS example. -/
theorem test_iorlw :
    (after { machine [0x0935#16] with
        w := 0x9A#8, flags := fl 0b00000 }).map
        (fun t => (t.w, t.flags))
      = some (0xBF#8, fl 0b00001) := by decide

/-- LFSR, ISS example. -/
theorem test_lfsr :
    (after (machine [0xEE23#16, 0xF0AB#16])).map
        (fun t => (t.fsr2, t.pc))
      = some (0x3AB#12, 0x104#21) := by decide

/-- MOVLB, V44-3. -/
theorem test_movlb :
    (after (machine [0x01F5#16])).map
        (fun t => t.bsr)
      = some (5#4) := by decide

/-- MOVLW, V44-12. -/
theorem test_movlw :
    (after { machine [0x0E00#16] with
        w := 0x55#8, flags := fl 0b00000 }).map
        (fun t => (t.w, t.flags))
      = some (0x00#8, fl 0b00000) := by decide

/-- MULLW, ISS example. -/
theorem test_mullw :
    (after { machine [0x0DC4#16] with
        w := 0xE2#8 }).map
        (fun t => (t.prodh, t.prodl, t.w))
      = some (0xAD#8, 0x08#8, 0xE2#8) := by decide

/-- SUBLW, V44-2. -/
theorem test_sublw :
    (after { machine [0x0800#16] with
        w := 0x80#8, flags := fl 0b00000 }).map
        (fun t => (t.w, t.flags))
      = some (0x80#8, fl 0b01011) := by decide

/-- SUBLW, ISS example 3. -/
theorem test_sublw_negative :
    (after { machine [0x0802#16] with
        w := 0x03#8, flags := fl 0b00000 }).map
        (fun t => (t.w, t.flags))
      = some (0xFF#8, fl 0b00001) := by decide

/-- XORLW, V44-11. -/
theorem test_xorlw :
    (after { machine [0x0AFF#16] with
        w := 0xFF#8, flags := fl 0b00000 }).map
        (fun t => (t.w, t.flags))
      = some (0x00#8, fl 0b00100) := by decide

/-- TBLRD*, V45-2: an odd address is the most significant byte. -/
theorem test_tblrd :
    (after { machine [0x0008#16, 0xEF04#16] with
        tblptr := 0x103#21 }).map
        (fun t => (t.tablat, t.tblptr))
      = some (0xEF#8, 0x103#21) := by decide

/-- TBLRD*+ (R216). -/
theorem test_tblrdPostInc :
    (after { machine [0x0009#16, 0xEF04#16] with
        tblptr := 0x102#21 }).map
        (fun t => (t.tablat, t.tblptr))
      = some (0x04#8, 0x103#21) := by decide

/-- TBLRD*- (R217). -/
theorem test_tblrdPostDec :
    (after { machine [0x000A#16, 0xEF04#16] with
        tblptr := 0x102#21 }).map
        (fun t => (t.tablat, t.tblptr))
      = some (0x04#8, 0x101#21) := by decide

/-- TBLRD+* (R218). -/
theorem test_tblrdPreInc :
    (after { machine [0x000B#16, 0xEF04#16] with
        tblptr := 0x101#21 }).map
        (fun t => (t.tablat, t.tblptr))
      = some (0x04#8, 0x102#21) := by decide

/-- TBLWT*, V45-6. -/
theorem test_tblwt :
    (after { machine [0x000C#16] with
        tblptr := 0x25#21, tablat := 0x9C#8 }).map
        (fun t => (t.holding[5]!, t.holding[4]!, t.tblptr))
      = some (0x9C#8, 0x00#8, 0x25#21) := by decide

/-- TBLWT*+, ISS example 1. -/
theorem test_tblwtPostInc :
    (after { machine [0x000D#16] with
        tblptr := 0xA356#21, tablat := 0x55#8 }).map
        (fun t => (t.holding[6]!, t.tblptr))
      = some (0x55#8, 0xA357#21) := by decide

/-- TBLWT*-, V45-8. -/
theorem test_tblwtPostDec :
    (after { machine [0x000E#16] with
        tblptr := 0x08#21, tablat := 0x02#8 }).map
        (fun t => (t.holding[0]!, t.tblptr))
      = some (0x02#8, 0x07#21) := by decide

/-- TBLWT+*, V45-7. -/
theorem test_tblwtPreInc :
    (after { machine [0x000F#16] with
        tblptr := 0x07#21, tablat := 0x01#8 }).map
        (fun t => (t.holding[0]!, t.holding[7]!, t.tblptr))
      = some (0x01#8, 0x00#8, 0x08#21) := by decide

/-- ADDFSR, V46-1. -/
theorem test_addfsr :
    (after { machineX [0xE83F#16] with
        fsr0 := 0xFFF#12 }).map
        (fun t => t.fsr0)
      = some (0x03E#12) := by decide

/-- SUBFSR, V46-2. -/
theorem test_subfsr :
    (after { machineX [0xE941#16] with
        fsr1 := 0x000#12 }).map
        (fun t => t.fsr1)
      = some (0xFFF#12) := by decide

/-- ADDULNK, ISS example. -/
theorem test_addulnk :
    (after { machineX [0xE8E3#16] with
        fsr2 := 0x3FF#12, stack := [0x40#21] }).map
        (fun t => (t.fsr2, t.pc, t.stack))
      = some (0x422#12, 0x40#21, []) := by decide

/-- SUBULNK, ISS example. -/
theorem test_subulnk :
    (after { machineX [0xE9E3#16] with
        fsr2 := 0x3FF#12, stack := [0x40#21] }).map
        (fun t => (t.fsr2, t.pc, t.stack))
      = some (0x3DC#12, 0x40#21, []) := by decide

/-- CALLW, V46-6. -/
theorem test_callw :
    (after { machineX [0x0014#16] with
        w := 0x07#8, pclath := 0x02#8, pclatu := 0x01#5 }).map
        (fun t => (t.pc, t.stack))
      = some (0x010206#21, [0x102#21]) := by decide

/-- MOVSF, ISS example. -/
theorem test_movsf :
    (after { machineX [0xEB05#16, 0xF020#16] with
        fsr2 := 0x080#12, ram := [(0x020, 0x11#8), (0x085, 0x33#8)] }).map
        (fun t => (t.ramByte 0x020#12, t.fsr2, t.pc))
      = some (0x33#8, 0x080#12, 0x104#21) := by decide

/-- MOVSS, V46-10: don't-care bits. -/
theorem test_movss :
    (after { machineX [0xEB81#16, 0xF802#16] with
        fsr2 := 0x080#12, ram := [(0x081, 0x33#8), (0x082, 0x11#8)] }).map
        (fun t => (t.ramByte 0x082#12, t.pc))
      = some (0x33#8, 0x104#21) := by decide

/-- MOVSS, V46-11. -/
theorem test_movss_nop :
    (after { machineX [0xEB80#16, 0xF001#16] with
        fsr2 := 0xFDE#12 }).map
        (fun t => (t.fsr2, t.ram, t.outputs, t.pc))
      = some (0xFDE#12, [], [], 0x104#21) := by decide

/-- PUSHL, V46-3. -/
theorem test_pushl :
    (after (machineX [0xEAFF#16])).map
        (fun t => (t.ramByte 0x000#12, t.fsr2))
      = some (0xFF#8, 0xFFF#12) := by decide

/-- BSF [5Fh], 0, V46-15. -/
theorem test_indexed_operand :
    (after { machineX [0x805F#16] with
        fsr2 := 0x200#12, ram := [(0x25F, 0x00#8)] }).map
        (fun t => t.ramByte 0x25F#12)
      = some (0x01#8) := by decide

/-- BCF 60h, 0, as V46-16: not indexed. -/
theorem test_bcf_above_indexed :
    (after { machineX [0x9060#16] with
        fsr2 := 0x200#12, ram := [(0x060, 0xFF#8)] }).map
        (fun t => t.ramByte 0x060#12)
      = some (0xFE#8) := by decide

/-- VI-1. -/
theorem test_interrupt_high :
    (after { machine [0x0000#16] with
        w := 0x55#8, bsr := 1#4, flags := fl 0b00100, intcon := 0x80#8, env := { Env.none with irqHigh := some .core } }).map
        (fun t => (t.stack, t.ws, t.statuss, t.bsrs, t.intcon, t.pc))
      = some ([0x100#21], 0x55#8, 0x04#8, 0x01#8, 0x00#8, 0x08#21) := by decide

/-- VI-3. -/
theorem test_interrupt_low :
    (after { machine [0x0000#16] with
        intcon := 0xC0#8, rcon := 0x80#8, env := { Env.none with irqLow := some .peripheral } }).map
        (fun t => (t.stack, t.intcon, t.pc))
      = some ([0x100#21], 0x80#8, 0x18#21) := by decide

/-- VI-8: GIEH gates both levels, the instruction runs. -/
theorem test_interrupt_gated :
    (after { machine [0x0000#16] with
        intcon := 0x40#8, rcon := 0x80#8, env := { Env.none with irqLow := some .core } }).map
        (fun t => (t.stack, t.pc))
      = some ([], 0x102#21) := by decide

/-- VS-1. -/
theorem test_wdt_wakes :
    (after { machine [0x0000#16] with
        asleep := true, rcon := 0x08#8, env := { Env.none with wdtTimeout := true } }).map
        (fun t => (t.asleep, t.rcon, t.pc))
      = some (false, 0x00#8, 0x100#21) := by decide

/-- VS-4. -/
theorem test_wdt_resets :
    (after { machine [0x0000#16] with
        w := 0x77#8, env := { Env.none with wdtTimeout := true } }).map
        (fun t => (t.pc, t.rcon, t.w))
      = some (0x00#21, 0x14#8, 0x77#8) := by decide

/-- VS-2. -/
theorem test_request_wakes :
    (after { machine [0x0000#16] with
        asleep := true, rcon := 0x08#8, env := { Env.none with irqHigh := some .core } }).map
        (fun t => (t.asleep, t.rcon, t.pc))
      = some (false, 0x08#8, 0x100#21) := by decide

/-- R48: TO = 1, PD = 0. -/
theorem test_mclr_in_sleep :
    (after { machine [0x0000#16] with
        asleep := true, rcon := 0x00#8, env := { Env.none with resetEvent := some .mclr } }).map
        (fun t => (t.asleep, t.rcon, t.pc))
      = some (false, 0x08#8, 0x00#21) := by decide

/-! ### The parameters of R5 -/

/-- The suggested map has every register at its address of R44, and nothing anywhere else. -/
theorem test_suggested_map :
    (∀ r ∈ [Sfr.tosu, .tosh, .tosl, .stkptr, .pclatu, .pclath, .pcl, .tblptru, .tblptrh, .tblptrl, .tablat, .prodh,
        .prodl, .intcon, .fsr0h, .fsr0l, .wreg, .fsr1h, .fsr1l, .bsr, .fsr2h, .fsr2l, .status, .rcon],
      sfrAt Config.pic18f4520 (sfrAddr r) = some r)
      ∧ (∀ n ∈ [Fsr.fsr0, .fsr1, .fsr2], ∀ m ∈ [IndirectMode.indf, .postinc, .postdec, .preinc, .plusw],
        indirectAt Config.pic18f4520 (indirectAddr n m) = some (n, m))
      ∧ SfrMap.suggested.length = 39 := by decide

/-- A map with STATUS at F00h and its flags turned round: MOVWF reaches them there. -/
theorem test_other_map_and_layout :
    (after { machine [0x6F00#16] with
        bsr := 0xF#4, w := 0x03#8
        cfg := { Config.pic18f4520 with
          sfrMap := [(0xF00#12, .core .status)]
          statusLayout := { n := 0, ov := 1, z := 2, dc := 3, c := 7 } } }).map (fun t => t.flags)
      = some { n := true, ov := true, z := false, dc := false, c := false } := by decide

/-- RAM in two pieces: a store to the second, and none between them. -/
theorem test_ram_pieces :
    let cfg := { Config.pic18f4520 with ramImplemented := [⟨0x000#12, 0x0FF#12⟩, ⟨0x300#12, 0x3FF#12⟩] }
    (after { machine [0x6F20#16] with bsr := 3#4, w := 0x55#8, cfg := cfg }).map (fun t => t.ram)
        = some [(0x320, 0x55#8)]
      ∧ faultOf { machine [0x6F20#16] with bsr := 2#4, cfg := cfg } = some (.unimplementedData 0x220#12) := by decide

/-! ### Faults (R251) -/

/-- VF-1. -/
theorem test_fault_reserved : faultOf (machine [0x00FE#16]) = some (.reservedInstruction 0x00FE#16) := by decide

/-- V44-6. -/
theorem test_fault_lfsr_designator : faultOf (machine [0xEE30#16, 0xF000#16]) = some (.reservedInstruction 0xEE30#16) := by decide

/-- V46-13. -/
theorem test_fault_extended_off : faultOf (machine [0xE8A3#16]) = some (.reservedInstruction 0xE8A3#16) := by decide

/-- VF-2. -/
theorem test_fault_second_word : faultOf (machine [0xC020#16, 0x0021#16]) = some (.malformedSecondWord 0x100#21 0x0021#16) := by decide

/-- V44-8. -/
theorem test_fault_lfsr_second_word : faultOf (machine [0xEE23#16, 0xF1AB#16]) = some (.malformedSecondWord 0x100#21 0xF1AB#16) := by decide

/-- V46-8. -/
theorem test_fault_forbidden : faultOf (machineX [0xEB00#16, 0xFFF9#16]) = some (.forbiddenDestination 0xFF9#12) := by decide

/-- POP (R34). -/
theorem test_fault_underflow : faultOf (machine [0x0006#16]) = some (.stackUnderflow 0x100#21) := by decide

/-- R33, one level of return stack. -/
theorem test_fault_overflow : faultOf { machine [0x0005#16] with cfg := { Config.pic18f4520 with stackDepth := 1 }, stack := [0x2#21] } = some (.stackOverflow 0x100#21) := by decide

/-- V20-18. -/
theorem test_fault_stkptr : faultOf (machine [0x6EFC#16]) = some .unsupportedStackPointerWrite := by decide

/-- TSTFSZ, as V20-19. -/
theorem test_fault_unimplemented : faultOf { machine [0x6720#16] with bsr := 8#4 } = some (.unimplementedData 0x820#12) := by decide

/-- INCFSZ PCL, as V20-20. -/
theorem test_fault_incfsz_pcl : faultOf (machine [0x3EF9#16]) = some .unpredictable := by decide

/-- V45-5. -/
theorem test_fault_tblrd : faultOf { machine [0x0009#16] with tblptr := 0x8000#21 } = some (.tableReadOutOfRange 0x8000#21) := by decide

/-- VF-5. -/
theorem test_fault_fetch : faultOf { machine [0x0000#16] with pc := 0x8000#21 } = some (.fetchOutOfRange 0x8000#21) := by decide

/-! ## Witnesses: for every obligation with hypotheses, a state and operands that meet them -/

/-- Awake, no event offered, the words at 000100h, `w` and two bytes of RAM set. -/
abbrev ready (ws : List Word) : State :=
  { machine ws with w := 0x17#8, ram := [(0x020, 0xC2#8), (0x021, 0x33#8)] }

/-- `ready` with the extended set. -/
abbrev readyX (ws : List Word) : State :=
  { machineX ws with w := 0x17#8, ram := [(0x020, 0xC2#8), (0x021, 0x33#8)] }

/-- One word at the end of program memory, the PC there. -/
abbrev atEnd (w : Word) : State :=
  { State.reset with prog := loadBytes [] 0x7FFE#21 (wordsBytes [w]), pc := 0x7FFE#21 }

/-- An even PC, the one hypothesis of DawAdjusts, ConditionalBranches, JumpsAndNops, WatchdogAndSleep,
LiteralArithmetic, LiteralLoads, TableReads, TableWrites and FsrArithmetic. -/
theorem witness_pc_even : (ready []).pc.getLsbD 0 = false ∧ (atEnd 0x0000#16).pc.getLsbD 0 = false := by decide

theorem witness_DecodeEncodeRoundTrip :
    wellFormed false (.goto 0xFFFFF#20) = true ∧ wellFormed true .callw = true := by decide

theorem witness_EncodeDecodeRoundTrip :
    decode false [0xFF#8, 0xF0#8] = .ok (.nopF 0x0FF#12, [])
      ∧ decode true [0xFF#8, 0xEB#8, 0x7F#8, 0xFF#8, 0x00#8] = .ok (.movss 0x7F#7 0x7F#7 0x1E#5, [0x00#8]) := by
  decide

theorem witness_MalformedSecondWords :
    isTwoWord false 0xC000#16 = true ∧ ¬ (0xEE30 ≤ (0xC000#16).toNat ∧ (0xC000#16).toNat ≤ 0xEE3F)
      ∧ isTwoWord false 0xEE2F#16 = true ∧ ¬ (0xEE30 ≤ (0xEE2F#16).toNat ∧ (0xEE2F#16).toNat ≤ 0xEE3F) := by
  decide

theorem witness_TwoWordTellsLength :
    decode false (wordsBytes [0xFFFF#16] ++ [0x00#8]) = .ok (.nopF 0xFFF#12, [0x00#8])
      ∧ decode false (wordsBytes [0xEF00#16] ++ [0x00#8, 0xF0#8]) = .ok (.goto 0x00000#20, []) := by decide

theorem witness_XinstGatesOnlyExtended : Instr.nop.isExtended = false ∧ Instr.callw.isExtended = true := by decide

/-- In the middle of program memory and at its last word. -/
theorem witness_StepRunsDecodedInstruction :
    Memory.wf (some Config.erasedByte) (ready [0xC020#16, 0xF021#16]).prog ∧ ((ready [0xC020#16, 0xF021#16]).running ∧ (ready [0xC020#16, 0xF021#16]).pc.toNat < 32768
        ∧ decode false [0x20#8, 0xC0#8, 0x21#8, 0xF0#8] = .ok (.movff 0x020#12 0x021#12, [])
        ∧ [(ready [0xC020#16, 0xF021#16]).progByte 0x100#21, (ready [0xC020#16, 0xF021#16]).progByte 0x101#21,
            (ready [0xC020#16, 0xF021#16]).progByte 0x102#21, (ready [0xC020#16, 0xF021#16]).progByte 0x103#21]
          = [0x20#8, 0xC0#8, 0x21#8, 0xF0#8])
      ∧ ((atEnd 0x0000#16).running ∧ (atEnd 0x0000#16).pc.toNat < 32768
        ∧ ¬ ((atEnd 0x0000#16).pc + 2#21).toNat < 32768
        ∧ decode false [(atEnd 0x0000#16).progByte 0x7FFE#21, (atEnd 0x0000#16).progByte 0x7FFF#21]
          = .ok (.nop, [])) := by decide

/-- Clause by clause: the PC at PROG_BYTES; a reserved word; a two-word instruction at the last word; a second
word that is none. -/
theorem witness_FetchFaultsInOrder :
    (ready []).running ∧ ({ ready [] with pc := 0x8000#21 }).cfg.progBytes ≤ (0x8000#21).toNat
      ∧ (ready [0xEE30#16]).fetchWord 0x100#21 = some 0xEE30#16
      ∧ decode false (wordsBytes [0xEE30#16]) = .error (.reserved 0xEE30#16)
      ∧ (atEnd 0xC020#16).fetchWord 0x7FFE#21 = some 0xC020#16 ∧ (atEnd 0xC020#16).fetchWord 0x8000#21 = none
      ∧ isTwoWord false 0xC020#16 = true
      ∧ decode false (wordsBytes [0xC020#16]) ≠ .error (.reserved 0xC020#16)
      ∧ (ready [0xC020#16, 0x0021#16]).fetchWord 0x102#21 = some 0x0021#16
      ∧ decode false (wordsBytes [0xC020#16, 0x0021#16]) = .error (.malformedSecondWord 0x0021#16) := by decide

theorem witness_StepKeepsInvariant :
    (ready [0x6E20#16]).Inv ∧ (after (ready [0x6E20#16])).isSome = true := by decide

theorem witness_StepKeepsProgramAndParameters : (after (ready [0x000C#16])).isSome = true := by decide

theorem witness_AddThenAdjustIsDecimalSum :
    State.reset.cfg.dawCarrySticky = true ∧ isBcd 0x99#8 ∧ isBcd 0x00#8 :=
  ⟨by decide, ⟨by decide, by decide⟩, by decide, by decide⟩

/-- f = 5Fh with and without XINST; 60h, 7Fh and 80h; the two sides of RAM's end and of F80h; a core register, an
indirect addressing register, and an address that is neither. -/
theorem witness_EffectiveAddressAndDispatch :
    ((readyX []).cfg.xinst = true ∧ (ready []).cfg.xinst = false ∧ (0x5F#8).toNat ≤ 0x5F)
      ∧ (0x5F < (0x60#8).toNat ∧ (0x7F#8).toNat ≤ 0x7F ∧ 0x5F < (0x80#8).toNat ∧ ¬ (0x80#8).toNat ≤ 0x7F)
      ∧ (ready []).cfg.accessMap = AccessPiece.suggested ∧ (ready []).cfg.sfrMap = SfrMap.suggested
      ∧ (∀ a ∈ [0x5FF#12, 0x600#12, 0xF7F#12, 0xF80#12],
        sfrAt Config.pic18f4520 a = none ∧ indirectAt Config.pic18f4520 a = none)
      ∧ sfrAt Config.pic18f4520 0xFF0#12 = none ∧ indirectAt Config.pic18f4520 0xFF0#12 = none
      ∧ sfrAt Config.pic18f4520 0xFFF#12 = some .tosu ∧ indirectAt Config.pic18f4520 0xFEF#12 = some (.fsr0, .indf) := by
  decide

/-- An address of no indirect register; INDF2 reached in Indexed Literal Offset mode, which resolves nothing; each of
the five modes. -/
theorem witness_OperandAddressing :
    indirectAt Config.pic18f4520 ((ready []).ea 0x20#8 .access) = none
      ∧ ((readyX []).indexed 0x01#8 .access = true
        ∧ indirectAt Config.pic18f4520 (({ readyX [] with fsr2 := 0xFDE#12 }).ea 0x01#8 .access) ≠ none)
      ∧ (ready []).indexed 0xEF#8 .access = false
      ∧ indirectAt Config.pic18f4520 ((ready []).ea 0xEF#8 .access) = some (.fsr0, .indf)
      ∧ indirectAt Config.pic18f4520 ((ready []).ea 0xEE#8 .access) = some (.fsr0, .postinc)
      ∧ indirectAt Config.pic18f4520 ((ready []).ea 0xE5#8 .access) = some (.fsr1, .postdec)
      ∧ indirectAt Config.pic18f4520 ((ready []).ea 0xE4#8 .access) = some (.fsr1, .preinc)
      ∧ indirectAt Config.pic18f4520 ((ready []).ea 0xDB#8 .access) = some (.fsr2, .plusw) := by decide

/-- RAM can be read and written, STKPTR only read; two different addresses. -/
theorem witness_RamReadAfterWrite :
    (Place.ram 0x020#12).readable = true ∧ (Place.ram 0x020#12).writable = true
      ∧ (Place.sfr .stkptr).readable = true ∧ (0xFFF#12 : DataAddr) ≠ 0x000#12 := by decide

/-- An empty stack, a full one and an entry on top; the suggested layout; a bit of STATUS that is no flag; a written
register of each branch: TOSU of an empty stack, TOSU of an entry, RCON. -/
theorem witness_CoreRegisterReadAfterWrite :
    ((ready []).stack = [] ∧ ({ ready [] with stack := [0x012344#21] }).stack = 0x012344#21 :: []
        ∧ (List.replicate 31 (0x2#21 : ProgAddr)).length < 32)
      ∧ (Config.layoutWf (ready []).cfg.statusLayout = true ∧ 5 ∉ [4, 3, 2, 1, 0])
      ∧ (Sfr.tosu ≠ .pcl ∧ Sfr.tosu ≠ .stkptr)
      ∧ ¬ (({ ready [] with stack := [0x012344#21] }).stack = [] ∧ Sfr.tosu = .tosu)
      ∧ (Sfr.rcon ≠ .pcl ∧ Sfr.rcon ≠ .stkptr ∧ Sfr.rcon ≠ .tosu ∧ Sfr.rcon ≠ .status) := by decide

/-- The first address above RAM as source and as destination, and STKPTR as a destination: of an instruction with an
operand, of MOVFF, MOVSF, MOVSS and PUSHL. -/
theorem witness_OperandFaults :
    (fileOperand (.movf 0x00#8 .wreg .banked) = some (0x00#8, .banked)
        ∧ (({ ready [] with bsr := 6#4 }).operand 0x00#8 .banked).1 = .unimplemented 0x600#12
        ∧ ((ready []).operand 0xFC#8 .access).1 = .sfr .stkptr
        ∧ writesOperand (.setf 0xFC#8 .access) = true)
      ∧ (forbiddenDestination Config.pic18f4520 0x600#12 = false ∧ forbiddenDestination Config.pic18f4520 0xFFC#12 = false
        ∧ ((ready []).resolve 0x600#12).1 = .unimplemented 0x600#12 ∧ ((ready []).resolve 0x020#12).1.readable = true
        ∧ (ready []).moveDest 0x600#12 = .unimplemented 0x600#12 ∧ (ready []).moveDest 0xFFC#12 = .sfr .stkptr)
      ∧ (placeAt Config.pic18f4520 (0x5C1#12 + (0x3F#7).setWidth 12) = .unimplemented 0x600#12
        ∧ forbiddenDestination Config.pic18f4520 (0x5C1#12 + (0x3F#7).setWidth 12) = false
        ∧ indirectAt Config.pic18f4520 (0x5C1#12 + (0x3F#7).setWidth 12) = none
        ∧ placeAt Config.pic18f4520 (0xFFA#12 + (0x02#7).setWidth 12) = .sfr .stkptr)
      ∧ (((({ readyX [] with fsr2 := 0x600#12 }).advance 2#21).resolve 0x600#12).1 = .unimplemented 0x600#12
        ∧ ((({ readyX [] with fsr2 := 0xFFC#12 }).advance 2#21).resolve 0xFFC#12).1 = .sfr .stkptr) := by decide

theorem operandOk_ram (d : Dest) : (ready []).operandOk 0x20#8 d .access := ⟨by decide, fun _ => by decide⟩

theorem witness_ArithmeticFileResults : (ready []).operandOk 0x20#8 .file .access := operandOk_ram .file

theorem witness_LogicFileResults : (ready []).operandOk 0x20#8 .wreg .access := operandOk_ram .wreg

/-- STKPTR can be read to W. -/
theorem witness_RotateFileResults :
    (ready []).operandOk 0x20#8 .file .access ∧ (ready []).operandOk 0xFC#8 .wreg .access :=
  ⟨operandOk_ram .file, by decide, nofun⟩

theorem witness_StoreResults : ((ready []).operand 0x20#8 .access).1.writable = true := by decide

theorem witness_MultiplyAndNegate :
    (ready []).operandOk 0x20#8 .wreg .access ∧ (ready []).operandOk 0x20#8 .file .access :=
  ⟨operandOk_ram .wreg, operandOk_ram .file⟩

theorem witness_MovffMoves :
    forbiddenDestination Config.pic18f4520 0x021#12 = false ∧ ((ready []).resolve 0x020#12).1.readable = true
      ∧ ((((ready []).resolve 0x020#12).2.afterRead ((ready []).resolve 0x020#12).1).advance 4#21
          |>.resolve 0x021#12).1.writable = true := by decide

theorem witness_ForbiddenDestinationsFault :
    sfrAt (ready []).cfg 0xFF9#12 = some .pcl ∧ sfrAt (ready []).cfg 0xFFF#12 = some .tosu
      ∧ sfrAt (ready []).cfg 0xFFE#12 = some .tosh ∧ sfrAt (ready []).cfg 0xFFD#12 = some .tosl
      ∧ ({ readyX [] with fsr2 := 0xFF8#12 }).fsr2 + (0x01#7).setWidth 12 = 0xFF9#12 := by decide

theorem witness_CompareSkips : ((ready []).operand 0x20#8 .access).1.readable = true := by decide

/-- A destination that is not PCL, and PCL. -/
theorem witness_CountSkips :
    ((ready []).operandOk 0x20#8 .file .access
        ∧ ¬ (Dest.file = .file ∧ ((ready []).operand 0x20#8 .access).1 = .sfr .pcl))
      ∧ ((ready []).operandOk 0xF9#8 .file .access ∧ ((ready []).operand 0xF9#8 .access).1 = .sfr .pcl) :=
  ⟨⟨operandOk_ram .file, by decide⟩, ⟨by decide, fun _ => by decide⟩, by decide⟩

/-- The hypotheses of `skipsFrom`: a next word, and none at the end of program memory. -/
theorem witness_skipsFrom :
    (ready [0x6220#16, 0xEF80#16]).fetchWord ((ready [0x6220#16, 0xEF80#16]).pc + 2#21) = some 0xEF80#16
      ∧ (atEnd 0x6220#16).fetchWord ((atEnd 0x6220#16).pc + 2#21) = none := by decide

theorem witness_BitResults : (ready []).operandOk 0x20#8 .file .access := operandOk_ram .file

/-- One level free. -/
theorem witness_CallsPush :
    (ready []).pc.getLsbD 0 = false
      ∧ (List.replicate 30 (0x2#21 : ProgAddr)).length < (ready []).cfg.stackDepth := by decide

theorem witness_ReturnsPop :
    (ready []).pc.getLsbD 0 = false
      ∧ ({ ready [] with stack := [0x012345#21] }).stack = 0x012345#21 :: [] := by decide

theorem witness_RetfieReturnsAndEnables :
    ({ ready [] with stack := [0x000040#21] }).stack = 0x000040#21 :: [] := by decide

theorem witness_StackLimitsFault :
    ({ ready [] with stack := List.replicate 31 0x2#21 }).stack.length = (ready []).cfg.stackDepth
      ∧ (ready []).stack = [] := by decide

theorem witness_FastCallReturnRestores :
    (ready []).pc.getLsbD 0 = false ∧ Config.layoutWf (ready []).cfg.statusLayout = true
      ∧ (after (ready [0xED80#16, 0xF000#16])).isSome = true := by decide

/-- The premise of the clauses that rest on the suggested table of R48, here and in the other resets. -/
theorem witness_ResetInstruction : (ready []).cfg.resetValues = ResetValues.suggested := by decide

/-- TBLPTR at the last program byte, at PROG_BYTES, and one before it for the pre-increment. -/
theorem witness_TableReads :
    (0x7FFF#21).toNat < (ready []).cfg.progBytes ∧ (ready []).cfg.progBytes ≤ (0x8000#21).toNat
      ∧ (ready []).cfg.progBytes ≤ (0x7FFF#21 + 1#21).toNat ∧ (0x1FFFFF#21 + 1#21).toNat < (ready []).cfg.progBytes := by
  decide

/-- An indirect addressing register as source; a MOVSF; MOVSS onto INDF2; MOVSS onto RAM; PUSHL. -/
theorem witness_IndexedMoves :
    indirectAt Config.pic18f4520 (({ readyX [] with fsr2 := 0xFDE#12 }).fsr2 + (0x01#7).setWidth 12) ≠ none
      ∧ (forbiddenDestination Config.pic18f4520 0x020#12 = false
        ∧ (placeAt (readyX []).cfg ((readyX []).fsr2 + (0x21#7).setWidth 12)).readable = true
        ∧ (((readyX []).advance 4#21).resolve 0x020#12).1.writable = true)
      ∧ (forbiddenDestination (readyX []).cfg ((readyX []).fsr2 + (0x7F#7).setWidth 12) = false
        ∧ indirectAt Config.pic18f4520 ((readyX []).fsr2 + (0x7F#7).setWidth 12) = none
        ∧ (placeAt (readyX []).cfg ((readyX []).fsr2 + (0x7F#7).setWidth 12)).writable = true)
      ∧ (((readyX []).advance 2#21).resolve (readyX []).fsr2).1.writable = true := by decide

/-- A store to RAM and one to a peripheral address, with an address each leaves alone. -/
theorem witness_MemoryFrame :
    ((after (ready [0x6E20#16])).isSome = true
        ∧ storePlace (.movwf 0x20#8 .access) (ready []) = some (.ram 0x020#12)
        ∧ storePlace (.movwf 0x20#8 .access) (ready []) ≠ some (.ram 0x021#12))
      ∧ (after (ready [0x6E82#16])).map (fun t => t.outputs) = some [(0xF82, 0x17#8)]
      ∧ storePlace (.movwf 0x82#8 .access) (ready []) = some (.peripheral 0xF82#12) := by decide

theorem witness_FlagFrame :
    (after (ready [0x6E20#16])).isSome = true
      ∧ storePlace (.movwf 0x20#8 .access) (ready []) ≠ some (.sfr .status)
      ∧ (flagsAffected (.movwf 0x20#8 .access)).n = false
      ∧ (flagsAffected (.rlcf 0x20#8 .wreg .access)).ov = false := by decide

/-- MOVLB changes BSR, a store changes PRODH. -/
theorem witness_BankAndProductWriters :
    (after (ready [0x0105#16])).map (fun t => decide (t.bsr ≠ 0#4)) = some true
      ∧ (after (ready [0x6EF4#16])).map (fun t => decide (t.prodh ≠ 0x00#8)) = some true := by decide

theorem witness_StackAndShadowWriters :
    (after (ready [0x0005#16])).map (fun t => decide (t.stack ≠ [])) = some true
      ∧ (after (ready [0xED80#16, 0xF000#16])).map (fun t => decide (t.ws ≠ 0x00#8)) = some true := by decide

theorem witness_TableRegisterWriters :
    (after (ready [0x0009#16])).map (fun t => decide (t.tablat ≠ 0x00#8 ∧ t.tblptr ≠ 0#21)) = some true
      ∧ (after ({ ready [0x000C#16] with tablat := 0x55#8 })).map
          (fun t => decide (t.holding[0]! ≠ 0x00#8)) = some true := by decide

theorem witness_ControlRegisterWriters :
    (after ({ ready [0x0010#16] with stack := [0x40#21] })).map (fun t => decide (t.intcon ≠ 0x00#8)) = some true
      ∧ (after (ready [0x0003#16])).map (fun t => decide (t.rcon ≠ 0x1C#8 ∧ t.asleep ≠ false)) = some true
      ∧ (after ({ ready [0x0004#16] with wdt := 1 })).map (fun t => decide (t.wdt ≠ 1)) = some true
      ∧ (match exec .reset { ready [] with asleep := true } with
        | .next t => t.asleep = false
        | .fault _ => False
        | .refused _ => False) := by
  refine ⟨by decide, by decide, by decide, rfl⟩

/-- For each line of the order an offer that reaches it. -/
theorem witness_BoundaryOrder :
    (ready []).rcon.getLsbD 7 = false ∧ ({ ready [] with rcon := 0x80#8 }).rcon.getLsbD 7 = true
      ∧ ((ready []).offer (.reset .mclr)).env.resetEvent = some .mclr
      ∧ (((ready []).offer .wdtTimeout).env.resetEvent = none ∧ ((ready []).offer .wdtTimeout).env.wdtTimeout = true)
      ∧ (({ ready [] with intcon := 0x80#8 }).offer (.irq .high .core)).canTake .high .core = true
      ∧ ((({ ready [] with intcon := 0x80#8 }).offer (.irq .low .core)).canTake .low .core = true
        ∧ (({ ready [] with intcon := 0x80#8 }).offer (.irq .low .core)).env.irqHigh = none)
      ∧ ((ready []).offer (.irq .high .core)).canTake .high .core = false
      ∧ (({ ready [] with asleep := true }).boundary = none ∧ ({ ready [] with asleep := true }).asleep = true) := by
  decide

/-- Both levels; room on the stack, and none. -/
theorem witness_InterruptEntry :
    (({ ready [] with intcon := 0x80#8 }).offer (.irq .high .core)).boundary = some (.irq .high)
      ∧ (({ ready [] with intcon := 0xC0#8, rcon := 0x80#8 }).offer (.irq .low .core)).boundary = some (.irq .low)
      ∧ (ready []).cfg.wf = true ∧ (ready []).stack.length < (ready []).cfg.stackDepth
      ∧ (({ ready [] with intcon := 0x80#8, stack := List.replicate 31 0x2#21 }).offer
          (.irq .high .core)).boundary = some (.irq .high)
      ∧ (List.replicate 31 (0x2#21 : ProgAddr)).length = (ready []).cfg.stackDepth := by decide

theorem witness_InterruptReturnRestores :
    (ready []).pc.getLsbD 0 = false ∧ Config.layoutWf (ready []).cfg.statusLayout = true
      ∧ (({ ready [] with intcon := 0x80#8 }).offer (.irq .high .core)).boundary = some (.irq .high)
      ∧ (after (({ ready [] with intcon := 0x80#8 }).offer (.irq .high .core))).isSome = true := by decide

theorem witness_WatchdogAndWake :
    ((ready []).offer .wdtTimeout).boundary = some .wdtTimeout ∧ (ready []).asleep = false
      ∧ (({ ready [] with asleep := true }).offer .wdtTimeout).boundary = some .wdtTimeout
      ∧ (({ ready [] with asleep := true }).offer (.irq .low .core)).boundary = some .wake := by decide

/-- A power-on reset, and MCLR running and asleep. -/
theorem witness_ResetEvents :
    ((ready []).offer (.reset .powerOn)).boundary = some (.reset .powerOn)
      ∧ (((ready []).offer (.reset .mclr)).boundary = some (.reset .mclr) ∧ (ready []).asleep = false)
      ∧ (({ ready [] with asleep := true }).offer (.reset .mclr)).boundary = some (.reset .mclr) := by decide

end Sys2Proof.Tests
end

section
/-! PROOFS. SetZN (R40), one rule per flag: the two it writes and the three it keeps. -/

namespace Sys2Proof.Machine

/-- Flags are compared one by one. -/
@[ext] theorem Flags.ext {fl fl' : Flags} (n : fl.n = fl'.n) (ov : fl.ov = fl'.ov) (z : fl.z = fl'.z)
    (dc : fl.dc = fl'.dc) (c : fl.c = fl'.c) : fl = fl' := by
  cases fl
  cases fl'
  congr

@[simp] theorem setZN_z (r : Byte) (fl : Flags) : (setZN r fl).z = decide (r = 0#8) :=
  beq_eq_decide r 0#8

@[simp] theorem setZN_n (r : Byte) (fl : Flags) : (setZN r fl).n = r.getLsbD 7 :=
  r.msb_eq_getLsbD_last

@[simp] theorem setZN_ov (r : Byte) (fl : Flags) : (setZN r fl).ov = fl.ov := rfl

@[simp] theorem setZN_dc (r : Byte) (fl : Flags) : (setZN r fl).dc = fl.dc := rfl

@[simp] theorem setZN_c (r : Byte) (fl : Flags) : (setZN r fl).c = fl.c := rfl

/-- Settles O16: flag by flag, the two written (Z, N) and the three kept (OV, DC, C). -/
theorem setZNWritesOnlyZAndN : Obligations.SetZNWritesOnlyZAndN := by
  intro r fl
  exact Flags.ext (setZN_n r fl) (setZN_ov r fl) (setZN_z r fl) (setZN_dc r fl) (setZN_c r fl)

end Sys2Proof.Machine
end

section
/-! PROOFS. The length of an instruction (R97): what a first word alone says about it. -/

namespace Sys2Proof

/-! ### Bit fields as quotients -/

/-- Bits `s + k - 1 : s` of a bit vector, as a number. -/
theorem extractLsb'_eq_iff {n : Nat} (x : BitVec n) (s k : Nat) (v : BitVec k) :
    x.extractLsb' s k = v ↔ x.toNat / 2 ^ s % 2 ^ k = v.toNat := by
  rw [← BitVec.toNat_inj, BitVec.extractLsb'_toNat, Nat.shiftRight_eq_div_pow]

/-- A field that reaches up to the top bit has nothing above it to mask. -/
theorem extractLsb'_top_eq_iff {n : Nat} (x : BitVec n) {s k : Nat} (h : s + k = n) (v : BitVec k) :
    x.extractLsb' s k = v ↔ x.toNat / 2 ^ s = v.toNat := by
  have hlt : x.toNat / 2 ^ s < 2 ^ k := Nat.div_lt_of_lt_mul (by rw [← Nat.pow_add, h]; exact x.isLt)
  rw [extractLsb'_eq_iff, Nat.mod_eq_of_lt hlt]

@[simp] theorem wordHi_toNat (w : Word) : (wordHi w).toNat = w.toNat / 256 := by
  have := w.isLt
  simp only [wordHi, BitVec.extractLsb'_toNat, Nat.shiftRight_eq_div_pow]
  omega

@[simp] theorem wordLo_toNat (w : Word) : (wordLo w).toNat = w.toNat % 256 := by
  simp [wordLo, BitVec.extractLsb'_toNat]

/-! ### `IsTwoWord` -/

/-- R97: the listed first words, each a field that reaches up to bit 15. -/
theorem isTwoWord_iff (xinst : Bool) (w : Word) : isTwoWord xinst w = true ↔
    (w.toNat / 2 ^ 12 = 0b1100 ∨ w.toNat / 2 ^ 9 = 0b1110110 ∨ w.toNat / 2 ^ 8 = 0b11101111
      ∨ w.toNat / 2 ^ 6 = 0b1110111000 ∨ (xinst = true ∧ w.toNat / 2 ^ 8 = 0b11101011)) := by
  simp [isTwoWord, extractLsb'_top_eq_iff, or_assoc]

/-- First words Cxxxh are MOVFF's. -/
theorem isTwoWord_of_nibbleC (xinst : Bool) (w : Word) (h : (wordHi w).extractLsb' 4 4 = 0b1100#4) :
    isTwoWord xinst w = true := by
  rw [extractLsb'_eq_iff, wordHi_toNat] at h
  rw [isTwoWord_iff]
  bv_omega

/-- Among the first words Exxxh, bits 11:8 tell; LFSR (1110) asks for bits 7:6 too. -/
theorem isTwoWord_of_nibbleE (xinst : Bool) (w : Word) (h : (wordHi w).extractLsb' 4 4 = 0b1110#4) :
    isTwoWord xinst w = true ↔
      ((wordHi w).extractLsb' 0 4 = 0b1100#4 ∨ (wordHi w).extractLsb' 0 4 = 0b1101#4
        ∨ (wordHi w).extractLsb' 0 4 = 0b1111#4
        ∨ ((wordHi w).extractLsb' 0 4 = 0b1110#4 ∧ (wordLo w).extractLsb' 6 2 = 0b00#2)
        ∨ (xinst = true ∧ (wordHi w).extractLsb' 0 4 = 0b1011#4)) := by
  rw [isTwoWord_iff]
  simp [extractLsb'_eq_iff] at h ⊢
  cases xinst <;> simp <;> omega

/-- No other first word is that of a two-word instruction. -/
theorem isTwoWord_of_other_nibble (xinst : Bool) (w : Word) (hC : (wordHi w).extractLsb' 4 4 ≠ 0b1100#4)
    (hE : (wordHi w).extractLsb' 4 4 ≠ 0b1110#4) : isTwoWord xinst w = false := by
  have := w.isLt
  rw [Bool.eq_false_iff, ne_eq, isTwoWord_iff]
  rw [ne_eq, extractLsb'_eq_iff, wordHi_toNat] at hC hE
  bv_omega

/-! ### What a first word says about the length -/

/-- The first word's reading agrees with `two`: a whole instruction has one word, the first half of another needs
`two`, and a reserved word says nothing. -/
def FirstWord.fits (two : Bool) : FirstWord → Prop
  | .whole i => i.words = 1 ∧ two = false
  | .reserved => True
  | _ => two = true

theorem decodeFixed_fits (xinst : Bool) (lo : Byte) : (decodeFixed xinst lo).fits false := by
  unfold decodeFixed
  split
  case h_19 => -- CALLW
    split
    · exact ⟨rfl, rfl⟩
    · trivial
  case h_21 => trivial
  all_goals exact ⟨rfl, rfl⟩

theorem decodeNibble0_fits (xinst : Bool) (hi lo : Byte) : (decodeNibble0 xinst hi lo).fits false := by
  unfold decodeNibble0
  split
  case h_1 => exact decodeFixed_fits xinst lo
  all_goals exact ⟨rfl, rfl⟩

theorem decodeByteD_fits (hi lo : Byte) : (decodeByteD hi lo).fits false := by
  unfold decodeByteD
  split
  case h_21 => trivial
  all_goals exact ⟨rfl, rfl⟩

theorem decodeNibble6_fits (hi lo : Byte) : (decodeNibble6 hi lo).fits false := by
  unfold decodeNibble6
  split <;> exact ⟨rfl, rfl⟩

theorem decodeFsrk_fits (sub : Bool) (lo : Byte) : (decodeFsrk sub lo).fits false := by
  unfold decodeFsrk
  split <;> cases sub <;> exact ⟨rfl, rfl⟩

theorem decodeMovs_fits (lo : Byte) : (decodeMovs lo).fits true := by
  unfold decodeMovs
  split <;> rfl

/-- Bits 7:6 are LFSR's own; a designator of no FSR is reserved (R106 (a)), whatever `IsTwoWord` says. -/
theorem decodeLfsr_fits (lo : Byte) : (decodeLfsr lo).fits (lo.extractLsb' 6 2 = 0b00#2) := by
  unfold decodeLfsr
  split
  next h00 => split <;> simp [FirstWord.fits, h00]
  next => trivial

theorem decodeNibbleE_fits (xinst : Bool) (w : Word) (h : (wordHi w).extractLsb' 4 4 = 0b1110#4) :
    (decodeNibbleE xinst (wordHi w) (wordLo w)).fits (isTwoWord xinst w) := by
  have htwo := isTwoWord_of_nibbleE xinst w h
  unfold decodeNibbleE
  generalize (wordHi w).extractLsb' 0 4 = nibble at htwo ⊢
  split
  case h_16 => -- GOTO: the one nibble left is 1111
    refine htwo.mpr (.inr (.inr (.inl ?_)))
    simp only [imp_false] at *
    bv_omega
  all_goals simp at htwo
  case h_9 | h_10 => -- ADDFSR, SUBFSR and their kin
    rw [htwo]
    split
    · exact decodeFsrk_fits _ _
    · trivial
  case h_11 => -- PUSHL
    rw [htwo]
    split
    · exact ⟨rfl, rfl⟩
    · trivial
  case h_12 => -- MOVSF, MOVSS
    rw [htwo]
    split
    next hx => exact hx ▸ decodeMovs_fits _
    next => trivial
  case h_13 | h_14 => exact htwo -- CALL
  case h_15 => -- LFSR
    rw [Bool.eq_iff_iff.mpr (htwo.trans decide_eq_true_iff.symm)]
    exact decodeLfsr_fits _
  all_goals exact ⟨rfl, htwo⟩

/-- R97: the row a first word matches has two words where `IsTwoWord` holds, and one where it does not. -/
theorem decodeFirst_fits (xinst : Bool) (w : Word) :
    (decodeFirst xinst (wordHi w) (wordLo w)).fits (isTwoWord xinst w) := by
  have hC := isTwoWord_of_nibbleC xinst w
  have hother := isTwoWord_of_other_nibble xinst w
  have hE := decodeNibbleE_fits xinst w
  unfold decodeFirst
  generalize (wordHi w).extractLsb' 4 4 = nibble at hC hother hE ⊢
  split
  case h_1 => exact hother (by simp) (by simp) ▸ decodeNibble0_fits _ _ _
  case h_2 => exact hother (by simp) (by simp) ▸ decodeNibble6_fits _ _
  case h_8 => exact hC rfl
  case h_9 => exact ⟨by split <;> rfl, hother (by simp) (by simp)⟩
  case h_10 => exact hE rfl
  case h_12 hnC _ hnE _ => exact hother hnC hnE ▸ decodeByteD_fits _ _
  all_goals exact ⟨rfl, hother (by simp) (by simp)⟩

/-! ### What the decoder consumes -/

/-- A second word completes only the first half of a two-word instruction. -/
theorem decodeSecond_words {two : Bool} {first : FirstWord} {hi2 lo2 : Byte} {i : Instr} (hfits : first.fits two)
    (h : decodeSecond first hi2 lo2 = some i) : i.words = 2 ∧ two = true := by
  unfold decodeSecond at h
  split at h
  next =>
    cases first with
    | whole | reserved => cases h
    | lfsr f k =>
      dsimp only at h
      split at h
      · cases h
        exact ⟨rfl, hfits⟩
      · cases h
    | movff | movsf | movss | call | goto =>
      cases h
      exact ⟨rfl, hfits⟩
  next => cases h

/-- Bytes that decode are a whole first word, or a first word and a second one that completes it. -/
theorem decode_ok_cases {xinst : Bool} {w : Word} {tail rest : List Byte} {i : Instr}
    (h : decode xinst (wordsBytes [w] ++ tail) = .ok (i, rest)) :
    (decodeFirst xinst (wordHi w) (wordLo w) = .whole i ∧ tail = rest) ∨
      ∃ hi2 lo2, decodeSecond (decodeFirst xinst (wordHi w) (wordLo w)) hi2 lo2 = some i
        ∧ tail = lo2 :: hi2 :: rest := by
  simp only [wordsBytes, List.cons_append, List.nil_append, decode] at h
  split at h
  next hwhole =>
    cases h
    exact .inl ⟨hwhole, rfl⟩
  next => cases h
  next =>
    split at h
    next lo2 hi2 rest' =>
      split at h
      next hsecond =>
        cases h
        exact .inr ⟨hi2, lo2, hsecond, rfl⟩
      next => cases h
    next => cases h

/-- R97: `IsTwoWord` of the first word tells the words of what decodes, and the bytes it takes. -/
theorem decode_length {xinst : Bool} {w : Word} {tail rest : List Byte} {i : Instr}
    (h : decode xinst (wordsBytes [w] ++ tail) = .ok (i, rest)) :
    i.words = (if isTwoWord xinst w = true then 2 else 1) ∧ 2 + tail.length = 2 * i.words + rest.length := by
  have hfits := decodeFirst_fits xinst w
  obtain ⟨hwhole, rfl⟩ | ⟨hi2, lo2, hsecond, rfl⟩ := decode_ok_cases h
  · rw [hwhole] at hfits
    obtain ⟨hwords, htwo⟩ := hfits
    simp [hwords, htwo]
  · obtain ⟨hwords, htwo⟩ := decodeSecond_words hfits hsecond
    simp [hwords, htwo]
    omega

/-- Settles O5: the listed first words field by field, the length by the two ways bytes can decode. -/
theorem twoWordTellsLength : Obligations.TwoWordTellsLength :=
  ⟨isTwoWord_iff, fun _ _ _ _ _ => decode_length⟩

end Sys2Proof
end

section
/-! PROOFS. BCF, BSF and BTG (R159 to R164): the word of the BIT format (R93), and the one bit of the operand that
changes. -/

namespace Sys2Proof

/-! ### The word of the BIT format -/

/-- Bit fields side by side, as a number. -/
theorem append_toNat {m n : Nat} (x : BitVec m) (y : BitVec n) : (x ++ y).toNat = x.toNat * 2 ^ n + y.toNat := by
  rw [BitVec.toNat_append, ← Nat.shiftLeft_add_eq_or_of_lt y.isLt, Nat.shiftLeft_eq]

theorem wordOf_toNat (hi lo : Byte) : (wordOf hi lo).toNat = hi.toNat * 2 ^ 8 + lo.toNat :=
  append_toNat hi lo

theorem bitOfAccess_toNat (a : Access) : (bitOfAccess a).toNat = if a = .banked then 1 else 0 := by
  cases a <;> rfl

theorem hiBit_toNat (op : BitVec 4) (b : BitVec 3) (a : Access) :
    (hiBit op b a).toNat = op.toNat * 2 ^ 4 + b.toNat * 2 + if a = .banked then 1 else 0 := by
  rw [hiBit, append_toNat, append_toNat, bitOfAccess_toNat]
  omega

/-- R93: the opcode in bits 15:12, b in 11:9, a in 8 and f in 7:0. -/
theorem wordOf_hiBit (op : BitVec 4) (b : BitVec 3) (a : Access) (f : Byte) :
    wordOf (hiBit op b a) f = BitVec.ofNat 16
      (op.toNat * 2 ^ 12 + b.toNat * 2 ^ 9 + (if a = .banked then 2 ^ 8 else 0) + f.toNat) := by
  have hfields : (wordOf (hiBit op b a) f).toNat =
      op.toNat * 2 ^ 12 + b.toNat * 2 ^ 9 + (if a = .banked then 2 ^ 8 else 0) + f.toNat := by
    rw [wordOf_toNat, hiBit_toNat]
    split <;> omega
  rw [← hfields, BitVec.ofNat_toNat, BitVec.setWidth_eq]

/-! ### The bit that changes -/

namespace Machine

/-- R159: an instruction that writes `new x` into bit b of its operand x writes the other seven bits back as
read. -/
theorem bitWrite_withBit (new : Byte → Bool) (f : Byte) (b : BitVec 3) (a : Access) (s : State)
    (h : s.operandOk f .file a) :
    ∃ v : Byte, bitWrite (fun x => withBit x b.toNat (new x)) f a s
        = .next (((s.afterOperandRead f a).advance 2#21).afterWrite v (s.operand f a).1)
      ∧ v.getLsbD b.toNat = new (s.operandValue f a)
      ∧ ∀ n, n ≠ b.toNat → v.getLsbD n = (s.operandValue f a).getLsbD n := by
  have hbit := fun n => withBit_getLsbD (s.operandValue f a) b.toNat n (new (s.operandValue f a)) b.isLt
  refine ⟨_, bitWrite_of_ok _ f a s h, ?written, fun n hn => ?kept⟩
  case written => rw [hbit, if_pos rfl]
  case kept => rw [hbit, if_neg hn]

/-- Settles O34: the three are `bitWrite` with 0, 1 and the complement as the new bit, in words of the BIT
format. -/
theorem bitResults : Obligations.BitResults := by
  intro s f b a h x put word
  rw [exec_bcf, exec_bsf, exec_btg]
  have hword := fun op => congrArg (fun w => [w]) (wordOf_hiBit op b a f)
  exact ⟨bitWrite_withBit (fun _ => false) f b a s h, bitWrite_withBit (fun _ => true) f b a s h,
    bitWrite_withBit (fun x => !x.getLsbD b.toNat) f b a s h,
    hword 0b1001#4, hword 0b1000#4, hword 0b0111#4⟩

end Machine

end Sys2Proof
end

section
/-! PROOFS. ADDLW, SUBLW, ANDLW, IORLW and XORLW (R200, R201, R202, R207, R208): the word of the LITERAL format, and
the one operation they share. -/

namespace Sys2Proof

/-- The high byte in bits 15:8 and the low byte in 7:0, as the constant with that value. -/
theorem wordOf_eq_ofNat (hi lo : Byte) : wordOf hi lo = BitVec.ofNat 16 (hi.toNat * 2 ^ 8 + lo.toNat) := by
  rw [← wordOf_toNat, BitVec.ofNat_toNat, BitVec.setWidth_eq]

namespace Machine

/-- What a literal operation writes: W, the flags, and a PC that moves on by one word. -/
theorem literalOp_of_even (r : Byte) (f : Flags → Flags) (s : State) (heven : s.pc.getLsbD 0 = false) :
    literalOp (r, f) s = .next { s with w := r, flags := f s.flags, pc := s.pc + 2#21 } :=
  congrArg Host.Outcome.next (State.advance_of_even { s with w := r, flags := f s.flags } 2#21 heven rfl)

/-- The logical literal operations: the result in W, and of the flags Z and N alone. -/
theorem literalOp_setZN_of_even (r : Byte) (s : State) (heven : s.pc.getLsbD 0 = false) :
    literalOp (r, setZN r) s = .next { s with
      w := r, flags := { s.flags with z := decide (r = 0#8), n := r.getLsbD 7 }, pc := s.pc + 2#21 } := by
  rw [literalOp_of_even r _ s heven, setZNWritesOnlyZAndN r s.flags]

/-- Settles O44: the five are `literalOp`, ADDLW and SUBLW with all the flags of the sum or difference, the logical
three with SetZN; each word is its opcode over k. -/
theorem literalArithmetic : Obligations.LiteralArithmetic := by
  intro s k heven all zn word
  have hall (r : Byte × Flags) : literalOp (r.1, fun _ => r.2) s = all r := literalOp_of_even _ _ s heven
  have hzn (r : Byte) : literalOp (r, setZN r) s = zn r := literalOp_setZN_of_even r s heven
  have hword (op : Byte) : [wordOf op k] = word op.toNat := congrArg (fun w => [w]) (wordOf_eq_ofNat op k)
  rw [exec_addlw, exec_sublw, exec_andlw, exec_iorlw, exec_xorlw]
  exact ⟨hall _, hall _, hzn _, hzn _, hzn _,
    hword 0b00001111#8, hword 0b00001000#8, hword 0b00001011#8, hword 0b00001001#8, hword 0b00001010#8⟩

end Machine

end Sys2Proof
end

section
/-! PROOFS. The decoder and the encoder are inverse to each other (R99, R100, R104). -/

namespace Sys2Proof

/-! ### Words from their bytes -/

@[simp] theorem wordHi_wordOf (hi lo : Byte) : wordHi (wordOf hi lo) = hi := by
  have h : (wordHi (wordOf hi lo)).toNat = hi.toNat := by
    rw [wordHi_toNat, wordOf_toNat]
    have := lo.isLt
    omega
  exact BitVec.eq_of_toNat_eq h

@[simp] theorem wordLo_wordOf (hi lo : Byte) : wordLo (wordOf hi lo) = lo := by
  have h : (wordLo (wordOf hi lo)).toNat = lo.toNat := by
    rw [wordLo_toNat, wordOf_toNat]
    have := lo.isLt
    omega
  exact BitVec.eq_of_toNat_eq h

@[simp] theorem wordOf_wordHi_wordLo (w : Word) : wordOf (wordHi w) (wordLo w) = w := by
  have h : (wordOf (wordHi w) (wordLo w)).toNat = w.toNat := by
    rw [wordOf_toNat, wordHi_toNat, wordLo_toNat]
    omega
  exact BitVec.eq_of_toNat_eq h

/-! ### Encode, then decode -/

/-- A first word that is a whole instruction is all the decoder reads. -/
theorem decode_of_whole {xinst : Bool} {i : Instr} {hi lo : Byte} (rest : List Byte)
    (henc : encode i = [wordOf hi lo]) (h : decodeFirst xinst hi lo = .whole i) :
    decode xinst (wordsBytes (encode i) ++ rest) = .ok (i, rest) := by
  simp [henc, wordsBytes, decode, h]

/-- A first word that is half an instruction is completed by the second. -/
theorem decode_of_two {xinst : Bool} {i : Instr} {hi lo hi2 lo2 : Byte} {first : FirstWord} (rest : List Byte)
    (henc : encode i = [wordOf hi lo, wordOf hi2 lo2]) (hfirst : decodeFirst xinst hi lo = first)
    (h : decodeSecond first hi2 lo2 = some i) :
    decode xinst (wordsBytes (encode i) ++ rest) = .ok (i, rest) := by
  cases first with
  | whole | reserved => simp [decodeSecond] at h
  | movff | movsf | movss | call | lfsr | goto => simp [henc, wordsBytes, decode, hfirst, h]

/-- An extended instruction is well-formed only with XINST = 1 (R104). -/
theorem xinst_of_wellFormed {xinst : Bool} {i : Instr} (hext : i.isExtended = true)
    (h : wellFormed xinst i = true) : xinst = true := by
  simpa [wellFormed, hext] using h

/-! ### The fields of the formats -/

/-- Two fields side by side, read apart and put together again, are what they were. -/
theorem extractLsb'_append_extractLsb' {m n : Nat} (x : BitVec (m + n)) :
    x.extractLsb' n m ++ x.extractLsb' 0 n = x := by
  rw [BitVec.extractLsb'_append_extractLsb'_eq_extractLsb' (by omega), BitVec.extractLsb'_eq_self]

/-- The opcode of the BIT format (R93). -/
theorem hiBit_opcode (op : BitVec 4) (b : BitVec 3) (a : Access) : (hiBit op b a).extractLsb' 4 4 = op := by
  rw [hiBit, BitVec.extractLsb'_append_eq_of_le (by decide)]
  exact BitVec.extractLsb'_append_eq_left

/-- Field b of the BIT format. -/
theorem hiBit_bit (op : BitVec 4) (b : BitVec 3) (a : Access) : (hiBit op b a).extractLsb' 1 3 = b := by
  rw [hiBit, BitVec.extractLsb'_append_eq_of_le (by decide)]
  exact BitVec.extractLsb'_append_eq_right

/-- Field a of the BIT format. -/
theorem hiBit_access (op : BitVec 4) (b : BitVec 3) (a : Access) :
    accessOfBit ((hiBit op b a).getLsbD 0) = a := by
  rw [hiBit, BitVec.getLsbD_append]
  cases a <;> rfl

/-- The opcode of a word with a 12-bit field. -/
theorem hi12_opcode (op y : BitVec 4) : (op ++ y : Byte).extractLsb' 4 4 = op :=
  BitVec.extractLsb'_append_eq_left

/-- The upper four bits of a 12-bit field. -/
theorem hi12_field (op y : BitVec 4) : (op ++ y : Byte).extractLsb' 0 4 = y :=
  BitVec.extractLsb'_append_eq_right

/-- A BRA11 word's nibble 15:12 is its opcode but for the lowest bit of that (R95 (c)). -/
theorem hi11_nibble (op : BitVec 5) (y : BitVec 3) : (op ++ y : Byte).extractLsb' 4 4 = op.extractLsb' 1 4 :=
  BitVec.extractLsb'_append_eq_of_le (by decide)

/-- The lowest bit of a BRA11 word's opcode, which tells BRA from RCALL. -/
theorem hi11_opcodeBit (op : BitVec 5) (y : BitVec 3) : (op ++ y : Byte).getLsbD 3 = op.getLsbD 0 := by
  rw [BitVec.getLsbD_append]
  rfl

/-- The upper three bits of an 11-bit offset. -/
theorem hi11_field (op : BitVec 5) (y : BitVec 3) : (op ++ y : Byte).extractLsb' 0 3 = y :=
  BitVec.extractLsb'_append_eq_right

/-! ### First words of two-word instructions -/

theorem decodeFirst_movff (xinst : Bool) (fs : DataAddr) :
    decodeFirst xinst (0b1100#4 ++ fs.extractLsb' 8 4) (fs.extractLsb' 0 8) = .movff fs := by
  simp only [decodeFirst, hi12_opcode, hi12_field, extractLsb'_append_extractLsb']

theorem decodeFirst_movsf (zs : BitVec 7) : decodeFirst true 0b11101011#8 (0b0#1 ++ zs) = .movsf zs := by
  have h7 : (0b0#1 ++ zs : Byte).getLsbD 7 = false := by rw [BitVec.getLsbD_append]; rfl
  have hz : (0b0#1 ++ zs : Byte).extractLsb' 0 7 = zs := BitVec.extractLsb'_append_eq_right
  change decodeMovs _ = _
  simp only [decodeMovs, h7, hz, Bool.false_eq_true, if_false]

theorem decodeFirst_movss (zs : BitVec 7) : decodeFirst true 0b11101011#8 (0b1#1 ++ zs) = .movss zs := by
  have h7 : (0b1#1 ++ zs : Byte).getLsbD 7 = true := by rw [BitVec.getLsbD_append]; rfl
  have hz : (0b1#1 ++ zs : Byte).extractLsb' 0 7 = zs := BitVec.extractLsb'_append_eq_right
  change decodeMovs _ = _
  simp only [decodeMovs, h7, hz, if_true]

theorem decodeFirst_call (xinst : Bool) (k : Byte) (s : Bool) :
    decodeFirst xinst (0b1110110#7 ++ bitOfFast s) k = .call k s := by
  cases s <;> rfl

theorem decodeFirst_lfsr (xinst : Bool) (f : Fsr) (k : BitVec 4) :
    decodeFirst xinst 0b11101110#8 (0b00#2 ++ bitsOfFsr f ++ k) = .lfsr f k := by
  have h00 : (0b00#2 ++ bitsOfFsr f ++ k : Byte).extractLsb' 6 2 = 0b00#2 := by
    rw [BitVec.extractLsb'_append_eq_of_le (by decide)]
    exact BitVec.extractLsb'_append_eq_left
  have hf : (0b00#2 ++ bitsOfFsr f ++ k : Byte).extractLsb' 4 2 = bitsOfFsr f := by
    rw [BitVec.extractLsb'_append_eq_of_le (by decide)]
    exact BitVec.extractLsb'_append_eq_right
  have hk : (0b00#2 ++ bitsOfFsr f ++ k : Byte).extractLsb' 0 4 = k := BitVec.extractLsb'_append_eq_right
  change decodeLfsr _ = _
  simp only [decodeLfsr, h00, hf, hk, if_true]
  cases f <;> rfl

theorem decodeFirst_goto (xinst : Bool) (k : Byte) : decodeFirst xinst 0b11101111#8 k = .goto k := rfl

/-! ### Second words -/

theorem decodeSecond_movff (fs x : DataAddr) :
    decodeSecond (.movff fs) (0b1111#4 ++ x.extractLsb' 8 4) (x.extractLsb' 0 8) = some (.movff fs x) := by
  simp only [decodeSecond, hi12_opcode, hi12_field, extractLsb'_append_extractLsb', if_true]

theorem decodeSecond_movsf (zs : BitVec 7) (x : DataAddr) :
    decodeSecond (.movsf zs) (0b1111#4 ++ x.extractLsb' 8 4) (x.extractLsb' 0 8) = some (.movsf zs x) := by
  simp only [decodeSecond, hi12_opcode, hi12_field, extractLsb'_append_extractLsb', if_true]

/-- MOVSS's own fields in the twelve bits of its second word: five that mean nothing over seven of offset. -/
theorem decodeSecond_movss (zs zd : BitVec 7) (x : BitVec 5) :
    decodeSecond (.movss zs) (0b1111#4 ++ (x ++ zd : DataAddr).extractLsb' 8 4)
      ((x ++ zd : DataAddr).extractLsb' 0 8) = some (.movss zs zd x) := by
  have hzd : ((x ++ zd : DataAddr).extractLsb' 0 8).extractLsb' 0 7 = zd := by
    apply BitVec.eq_of_toNat_eq
    simp only [BitVec.extractLsb'_toNat, Nat.shiftRight_eq_div_pow, append_toNat]
    omega
  have hx : (x ++ zd : DataAddr).extractLsb' 8 4 ++ ((x ++ zd : DataAddr).extractLsb' 0 8).extractLsb' 7 1 = x := by
    apply BitVec.eq_of_toNat_eq
    simp only [BitVec.extractLsb'_toNat, Nat.shiftRight_eq_div_pow, append_toNat]
    omega
  simp only [decodeSecond, hi12_opcode, hi12_field, hzd, hx, if_true]

theorem decodeSecond_call (k : BitVec 20) (s : Bool) :
    decodeSecond (.call (k.extractLsb' 0 8) s) (0b1111#4 ++ (k.extractLsb' 8 12).extractLsb' 8 4)
      ((k.extractLsb' 8 12).extractLsb' 0 8) = some (.call k s) := by
  simp only [decodeSecond, hi12_opcode, hi12_field, extractLsb'_append_extractLsb', if_true]

theorem decodeSecond_goto (k : BitVec 20) :
    decodeSecond (.goto (k.extractLsb' 0 8)) (0b1111#4 ++ (k.extractLsb' 8 12).extractLsb' 8 4)
      ((k.extractLsb' 8 12).extractLsb' 0 8) = some (.goto k) := by
  simp only [decodeSecond, hi12_opcode, hi12_field, extractLsb'_append_extractLsb', if_true]

theorem decodeSecond_lfsr (f : Fsr) (k : BitVec 12) :
    decodeSecond (.lfsr f (k.extractLsb' 8 4)) 0b11110000#8 (k.extractLsb' 0 8) = some (.lfsr f k) :=
  congrArg (fun x => some (Instr.lfsr f x)) (extractLsb'_append_extractLsb' (m := 4) (n := 8) k)

/-! ### One-word instructions with a field of their own -/

theorem decodeFirst_bra (xinst : Bool) (n : BitVec 11) :
    decodeFirst xinst (0b11010#5 ++ n.extractLsb' 8 3) (n.extractLsb' 0 8) = .whole (.bra n) := by
  have hn := extractLsb'_append_extractLsb' (m := 3) (n := 8) n
  simp only [decodeFirst, hi11_nibble, hi11_opcodeBit, hi11_field]
  exact congrArg (fun x => FirstWord.whole (.bra x)) hn

theorem decodeFirst_rcall (xinst : Bool) (n : BitVec 11) :
    decodeFirst xinst (0b11011#5 ++ n.extractLsb' 8 3) (n.extractLsb' 0 8) = .whole (.rcall n) := by
  have hn := extractLsb'_append_extractLsb' (m := 3) (n := 8) n
  simp only [decodeFirst, hi11_nibble, hi11_opcodeBit, hi11_field]
  exact congrArg (fun x => FirstWord.whole (.rcall x)) hn

theorem decodeFirst_nopF (xinst : Bool) (x : BitVec 12) :
    decodeFirst xinst (0b1111#4 ++ x.extractLsb' 8 4) (x.extractLsb' 0 8) = .whole (.nopF x) := by
  simp only [decodeFirst, hi12_opcode, hi12_field, extractLsb'_append_extractLsb']

/-- R96 (c): bits 7:6 of E8xxh and E9xxh designate an FSR, or with 11 the LNK form. -/
theorem decodeFsrk_fsr (sub : Bool) (f : Fsr) (k : BitVec 6) :
    decodeFsrk sub (bitsOfFsr f ++ k) = .whole (if sub then .subfsr f k else .addfsr f k) := by
  have hf : (bitsOfFsr f ++ k : Byte).extractLsb' 6 2 = bitsOfFsr f := BitVec.extractLsb'_append_eq_left
  have hk : (bitsOfFsr f ++ k : Byte).extractLsb' 0 6 = k := BitVec.extractLsb'_append_eq_right
  simp only [decodeFsrk, hf, hk]
  cases f <;> rfl

theorem decodeFsrk_lnk (sub : Bool) (k : BitVec 6) :
    decodeFsrk sub (0b11#2 ++ k) = .whole (if sub then .subulnk k else .addulnk k) := by
  have hf : (0b11#2 ++ k : Byte).extractLsb' 6 2 = 0b11#2 := BitVec.extractLsb'_append_eq_left
  have hk : (0b11#2 ++ k : Byte).extractLsb' 0 6 = k := BitVec.extractLsb'_append_eq_right
  simp only [decodeFsrk, hf, hk]
  rfl

/-- R99, R104: the bytes of a well-formed instruction decode to it. -/
theorem decode_encode (xinst : Bool) (i : Instr) (rest : List Byte) (h : wellFormed xinst i = true) :
    decode xinst (wordsBytes (encode i) ++ rest) = .ok (i, rest) := by
  cases i with
  | nop | sleep | clrwdt | push | pop | daw | tblrd | tblrdPostInc | tblrdPostDec | tblrdPreInc | tblwt
  | tblwtPostInc | tblwtPostDec | tblwtPreInc | reset => rfl
  | retfie s | ret s => cases s <;> exact decode_of_whole rest rfl rfl
  | movlb | sublw | iorlw | xorlw | andlw | retlw | mullw | movlw | addlw
  | bz | bnz | bc | bnc | bov | bnov | bn | bnn => exact decode_of_whole rest rfl rfl
  | mulwf f a | cpfslt f a | cpfseq f a | cpfsgt f a | tstfsz f a | setf f a | clrf f a | negf f a | movwf f a =>
    cases a <;> exact decode_of_whole rest rfl rfl
  | decf f d a | iorwf f d a | andwf f d a | xorwf f d a | comf f d a | addwfc f d a | addwf f d a | incf f d a
  | decfsz f d a | rrcf f d a | rlcf f d a | swapf f d a | incfsz f d a | rrncf f d a | rlncf f d a
  | infsnz f d a | dcfsnz f d a | movf f d a | subfwb f d a | subwfb f d a | subwf f d a =>
    cases d <;> cases a <;> exact decode_of_whole rest rfl rfl
  | btg f b a | bsf f b a | bcf f b a | btfss f b a | btfsc f b a =>
    exact decode_of_whole rest rfl (by simp only [decodeFirst, hiBit_opcode, hiBit_bit, hiBit_access])
  | bra n => exact decode_of_whole rest rfl (decodeFirst_bra xinst n)
  | rcall n => exact decode_of_whole rest rfl (decodeFirst_rcall xinst n)
  | nopF x => exact decode_of_whole rest rfl (decodeFirst_nopF xinst x)
  | movff fs fd => exact decode_of_two rest rfl (decodeFirst_movff xinst fs) (decodeSecond_movff fs fd)
  | call k s => exact decode_of_two rest rfl (decodeFirst_call xinst _ s) (decodeSecond_call k s)
  | lfsr f k => exact decode_of_two rest rfl (decodeFirst_lfsr xinst f _) (decodeSecond_lfsr f k)
  | goto k => exact decode_of_two rest rfl (decodeFirst_goto xinst _) (decodeSecond_goto k)
  | callw =>
    obtain rfl := xinst_of_wellFormed rfl h
    rfl
  | pushl k =>
    obtain rfl := xinst_of_wellFormed rfl h
    exact decode_of_whole rest rfl rfl
  | addfsr f k =>
    obtain rfl := xinst_of_wellFormed rfl h
    exact decode_of_whole rest rfl (decodeFsrk_fsr false f k)
  | subfsr f k =>
    obtain rfl := xinst_of_wellFormed rfl h
    exact decode_of_whole rest rfl (decodeFsrk_fsr true f k)
  | addulnk k =>
    obtain rfl := xinst_of_wellFormed rfl h
    exact decode_of_whole rest rfl (decodeFsrk_lnk false k)
  | subulnk k =>
    obtain rfl := xinst_of_wellFormed rfl h
    exact decode_of_whole rest rfl (decodeFsrk_lnk true k)
  | movsf zs fd =>
    obtain rfl := xinst_of_wellFormed rfl h
    exact decode_of_two rest rfl (decodeFirst_movsf zs) (decodeSecond_movsf zs fd)
  | movss zs zd x =>
    obtain rfl := xinst_of_wellFormed rfl h
    exact decode_of_two rest rfl (decodeFirst_movss zs) (decodeSecond_movss zs zd x)

/-- Settles O1, by `decode_encode`, one case an instruction. -/
theorem decodeEncodeRoundTrip : Obligations.DecodeEncodeRoundTrip :=
  decode_encode

end Sys2Proof
end

section
/-! PROOFS. What decodes is well-formed and the encoding of what it decodes to (R99, R103, R104). -/

namespace Sys2Proof

/-! ### Fields put together again -/

/-- The opcode, d and a of the BYTE format (R91). -/
theorem hiByteD_fields (hi : Byte) :
    hiByteD (hi.extractLsb' 2 6) (destOfBit (hi.getLsbD 1)) (accessOfBit (hi.getLsbD 0)) = hi := by
  revert hi; decide

/-- The opcode and a of the BYTE_A format (R91). -/
theorem hiByteA_fields (hi : Byte) : hiByteA (hi.extractLsb' 1 7) (accessOfBit (hi.getLsbD 0)) = hi := by
  revert hi; decide

/-- The opcode, b and a of the BIT format (R93). -/
theorem hiBit_fields (hi : Byte) :
    hiBit (hi.extractLsb' 4 4) (hi.extractLsb' 1 3) (accessOfBit (hi.getLsbD 0)) = hi := by
  revert hi; decide

/-- A word with a 12-bit field. -/
theorem word12_fields (hi lo : Byte) :
    word12 (hi.extractLsb' 4 4) (hi.extractLsb' 0 4 ++ lo) = wordOf hi lo := by
  have hhi : (hi.extractLsb' 0 4 ++ lo : BitVec 12).extractLsb' 8 4 = hi.extractLsb' 0 4 :=
    BitVec.extractLsb'_append_eq_left
  have hlo : (hi.extractLsb' 0 4 ++ lo : BitVec 12).extractLsb' 0 8 = lo := BitVec.extractLsb'_append_eq_right
  rw [word12, hhi, hlo]
  exact congrArg (wordOf · lo) (extractLsb'_append_extractLsb' (m := 4) (n := 4) hi)

/-- A BRA11 word (R95 (c)). -/
theorem word11_fields (hi lo : Byte) :
    word11 (hi.extractLsb' 3 5) (hi.extractLsb' 0 3 ++ lo) = wordOf hi lo := by
  have hhi : (hi.extractLsb' 0 3 ++ lo : BitVec 11).extractLsb' 8 3 = hi.extractLsb' 0 3 :=
    BitVec.extractLsb'_append_eq_left
  have hlo : (hi.extractLsb' 0 3 ++ lo : BitVec 11).extractLsb' 0 8 = lo := BitVec.extractLsb'_append_eq_right
  rw [word11, hhi, hlo]
  exact congrArg (wordOf · lo) (extractLsb'_append_extractLsb' (m := 5) (n := 3) hi)

/-- A byte from its two nibbles. -/
theorem byte_of_nibbles {hi : Byte} {u l : BitVec 4} (hu : hi.extractLsb' 4 4 = u) (hl : hi.extractLsb' 0 4 = l) :
    hi = u ++ l := by
  rw [← hu, ← hl]
  exact (extractLsb'_append_extractLsb' (m := 4) (n := 4) hi).symm

/-- Bits 15:9 of a word, from its upper nibble and its bits 11:9. -/
theorem bits7_of_fields {hi : Byte} {u : BitVec 4} {v : BitVec 3} (hu : hi.extractLsb' 4 4 = u)
    (hv : hi.extractLsb' 1 3 = v) : hi.extractLsb' 1 7 = u ++ v := by
  rw [← hu, ← hv]
  exact (BitVec.extractLsb'_append_extractLsb'_eq_extractLsb' (x := hi) (start₁ := 1) (len₁ := 3) (len₂ := 4)
    rfl).symm

/-- Bits 15:11 of a word, from its upper nibble and its bit 11. -/
theorem bits5_of_fields (hi : Byte) : hi.extractLsb' 3 5 = hi.extractLsb' 4 4 ++ BitVec.ofBool (hi.getLsbD 3) := by
  revert hi; decide

/-! ### What a first word says, as an encoding -/

/-- The word `w` is the encoding of what a first word was read as: of the whole instruction, which is well-formed, or
of the first half with the fields it carries. -/
def FirstWord.encodes (xinst : Bool) (w : Word) : FirstWord → Prop
  | .whole i => encode i = [w] ∧ wellFormed xinst i = true
  | .movff fs => w = word12 0b1100#4 fs
  | .movsf zs => xinst = true ∧ w = wordOf 0b11101011#8 (0b0#1 ++ zs)
  | .movss zs => xinst = true ∧ w = wordOf 0b11101011#8 (0b1#1 ++ zs)
  | .call k s => w = wordOf (0b1110110#7 ++ bitOfFast s) k
  | .lfsr f k => w = wordOf 0b11101110#8 (0b00#2 ++ bitsOfFsr f ++ k)
  | .goto k => w = wordOf 0b11101111#8 k
  | .reserved => True

/-- A standard instruction in one word. -/
theorem FirstWord.encodes_whole {xinst : Bool} {w : Word} {i : Instr} (henc : encode i = [w])
    (hext : i.isExtended = false) : (FirstWord.whole i).encodes xinst w :=
  ⟨henc, by simp [wellFormed, hext]⟩

theorem decodeFixed_encodes (xinst : Bool) (lo : Byte) : (decodeFixed xinst lo).encodes xinst (wordOf 0x00#8 lo) := by
  unfold decodeFixed
  split
  case h_19 => -- CALLW
    split
    next hx => exact ⟨rfl, by simp [wellFormed, hx]⟩
    next => trivial
  case h_21 => trivial
  all_goals exact FirstWord.encodes_whole rfl rfl

theorem decodeNibble0_encodes (xinst : Bool) (hi lo : Byte) (hu : hi.extractLsb' 4 4 = 0b0000#4) :
    (decodeNibble0 xinst hi lo).encodes xinst (wordOf hi lo) := by
  have hbyte (l : BitVec 4) (hl : hi.extractLsb' 0 4 = l) : hi = 0b0000#4 ++ l := byte_of_nibbles hu hl
  unfold decodeNibble0
  split
  case h_1 hl =>
    obtain rfl := hbyte _ hl
    exact decodeFixed_encodes xinst lo
  case h_13 => -- DECF: bits 11:10 are 01
    have hop : hi.extractLsb' 2 6 = 0b000001#6 := by
      simp only [imp_false, extractLsb'_eq_iff] at *
      bv_omega
    have henc : encode (.decf lo (destOfBit (hi.getLsbD 1)) (accessOfBit (hi.getLsbD 0))) = [wordOf hi lo] := by
      rw [encode, ← hop, hiByteD_fields]
    exact FirstWord.encodes_whole henc rfl
  all_goals
    next hl =>
      obtain rfl := hbyte _ hl
      exact FirstWord.encodes_whole rfl rfl

theorem decodeByteD_encodes (xinst : Bool) (hi lo : Byte) : (decodeByteD hi lo).encodes xinst (wordOf hi lo) := by
  have hword (op : BitVec 6) (h : hi.extractLsb' 2 6 = op) :
      [wordOf (hiByteD op (destOfBit (hi.getLsbD 1)) (accessOfBit (hi.getLsbD 0))) lo] = [wordOf hi lo] := by
    rw [← h, hiByteD_fields]
  unfold decodeByteD
  split
  case h_21 => trivial
  all_goals exact FirstWord.encodes_whole (hword _ ‹_›) rfl

theorem decodeNibble6_encodes (xinst : Bool) (hi lo : Byte) (hu : hi.extractLsb' 4 4 = 0b0110#4) :
    (decodeNibble6 hi lo).encodes xinst (wordOf hi lo) := by
  have hword (v : BitVec 3) (op : BitVec 7) (hop : 0b0110#4 ++ v = op) (hv : hi.extractLsb' 1 3 = v) :
      [wordOf (hiByteA op (accessOfBit (hi.getLsbD 0))) lo] = [wordOf hi lo] := by
    rw [← hop, ← bits7_of_fields hu hv, hiByteA_fields]
  unfold decodeNibble6
  split
  case h_8 => -- MOVWF: the one value of bits 11:9 left is 111
    refine FirstWord.encodes_whole (hword 0b111#3 _ rfl ?_) rfl
    simp only [imp_false] at *
    bv_omega
  all_goals exact FirstWord.encodes_whole (hword _ _ rfl ‹_›) rfl

/-- R96 (c), R106 (b): designator and offset of E8xxh and E9xxh. -/
theorem decodeFsrk_encodes (sub : Bool) (lo : Byte) :
    (decodeFsrk sub lo).encodes true (wordOf (if sub then 0b11101001#8 else 0b11101000#8) lo) := by
  have hlo : lo.extractLsb' 6 2 ++ lo.extractLsb' 0 6 = lo := extractLsb'_append_extractLsb' (m := 2) (n := 6) lo
  have hfsr (ff : BitVec 2) (f : Fsr) (h : fsrOfBits ff = some f) : bitsOfFsr f = ff := by
    revert ff; cases f <;> decide
  have hnone (ff : BitVec 2) (h : fsrOfBits ff = none) : ff = 0b11#2 := by
    revert ff; decide
  unfold decodeFsrk
  cases hf : fsrOfBits (lo.extractLsb' 6 2) with
  | some f =>
    rw [← hfsr _ f hf] at hlo
    cases sub <;> exact ⟨congrArg (fun x => [wordOf _ x]) hlo, rfl⟩
  | none =>
    rw [hnone _ hf] at hlo
    cases sub <;> exact ⟨congrArg (fun x => [wordOf _ x]) hlo, rfl⟩

/-- R96 (d), (e): bit 7 and offset of EBxxh. -/
theorem decodeMovs_encodes (lo : Byte) : (decodeMovs lo).encodes true (wordOf 0b11101011#8 lo) := by
  have hlo : lo.extractLsb' 7 1 ++ lo.extractLsb' 0 7 = lo := extractLsb'_append_extractLsb' (m := 1) (n := 7) lo
  have hbit : lo.extractLsb' 7 1 = BitVec.ofBool (lo.getLsbD 7) := by revert lo; decide
  unfold decodeMovs
  split
  next h7 =>
    rw [hbit, h7] at hlo
    exact ⟨rfl, congrArg (wordOf _) hlo.symm⟩
  next h7 =>
    rw [hbit, Bool.eq_false_iff.mpr h7] at hlo
    exact ⟨rfl, congrArg (wordOf _) hlo.symm⟩

/-- R96 (a), R106 (a): bits 7:6, designator and literal of EExxh. -/
theorem decodeLfsr_encodes (xinst : Bool) (lo : Byte) : (decodeLfsr lo).encodes xinst (wordOf 0b11101110#8 lo) := by
  have hlo : lo.extractLsb' 6 2 ++ lo.extractLsb' 4 2 ++ lo.extractLsb' 0 4 = lo := by revert lo; decide
  have hfsr (ff : BitVec 2) (f : Fsr) (h : fsrOfBits ff = some f) : bitsOfFsr f = ff := by
    revert ff; cases f <;> decide
  unfold decodeLfsr
  split
  next h00 =>
    split
    next f hf =>
      rw [h00, ← hfsr _ f hf] at hlo
      exact congrArg (wordOf _) hlo.symm
    next => trivial
  next => trivial

theorem decodeNibbleE_encodes (xinst : Bool) (hi lo : Byte) (hu : hi.extractLsb' 4 4 = 0b1110#4) :
    (decodeNibbleE xinst hi lo).encodes xinst (wordOf hi lo) := by
  have hbyte (l : BitVec 4) (hl : hi.extractLsb' 0 4 = l) : hi = 0b1110#4 ++ l := byte_of_nibbles hu hl
  unfold decodeNibbleE
  split
  case h_16 => -- GOTO: the one nibble left is 1111
    obtain rfl := hbyte 0b1111#4 (by simp only [imp_false] at *; bv_omega)
    rfl
  all_goals obtain rfl := hbyte _ ‹hi.extractLsb' 0 4 = _›
  case h_9 => -- ADDFSR, ADDULNK
    split
    next hx => exact hx ▸ decodeFsrk_encodes false lo
    next => trivial
  case h_10 => -- SUBFSR, SUBULNK
    split
    next hx =>
      subst hx
      exact decodeFsrk_encodes true lo
    next => trivial
  case h_11 => -- PUSHL
    split
    next hx => exact ⟨rfl, by simp [wellFormed, hx]⟩
    next => trivial
  case h_12 => -- MOVSF, MOVSS
    split
    next hx => exact hx ▸ decodeMovs_encodes lo
    next => trivial
  case h_13 => rfl
  case h_14 => rfl
  case h_15 => exact decodeLfsr_encodes xinst lo
  all_goals exact FirstWord.encodes_whole rfl rfl

/-- R99, R104: a first word is the encoding of what it is read as. -/
theorem decodeFirst_encodes (xinst : Bool) (hi lo : Byte) :
    (decodeFirst xinst hi lo).encodes xinst (wordOf hi lo) := by
  have hbit (op : BitVec 4) (h : hi.extractLsb' 4 4 = op) :
      [wordOf (hiBit op (hi.extractLsb' 1 3) (accessOfBit (hi.getLsbD 0))) lo] = [wordOf hi lo] := by
    rw [← h, hiBit_fields]
  have hbra (h : hi.extractLsb' 4 4 = 0b1101#4) (b : Bool) (hb : hi.getLsbD 3 = b) :
      [word11 (0b1101#4 ++ BitVec.ofBool b) (hi.extractLsb' 0 3 ++ lo)] = [wordOf hi lo] := by
    rw [← h, ← hb, ← bits5_of_fields, word11_fields]
  have h12 (op : BitVec 4) (h : hi.extractLsb' 4 4 = op) :
      wordOf hi lo = word12 op (hi.extractLsb' 0 4 ++ lo) := by
    rw [← h, word12_fields]
  unfold decodeFirst
  split
  case h_1 hu => exact decodeNibble0_encodes xinst hi lo hu
  case h_2 hu => exact decodeNibble6_encodes xinst hi lo hu
  case h_8 hu => exact h12 _ hu
  case h_9 hu =>
    split
    next hb => exact FirstWord.encodes_whole (hbra hu true hb) rfl
    next hb => exact FirstWord.encodes_whole (hbra hu false (Bool.eq_false_iff.mpr hb)) rfl
  case h_10 hu => exact decodeNibbleE_encodes xinst hi lo hu
  case h_11 hu => exact FirstWord.encodes_whole (congrArg (fun w => [w]) (h12 _ hu).symm) rfl
  case h_12 => exact decodeByteD_encodes xinst hi lo
  all_goals exact FirstWord.encodes_whole (hbit _ ‹_›) rfl

/-! ### Both words -/

/-- The twelve bits of MOVSS's second word, from the two fields they are read as. -/
theorem movss_fields (y : BitVec 4) (lo2 : Byte) :
    (y ++ lo2.extractLsb' 7 1 : BitVec 5) ++ lo2.extractLsb' 0 7 = y ++ lo2 := by
  apply BitVec.eq_of_toNat_eq
  have hlo2 := lo2.isLt
  simp only [append_toNat, BitVec.extractLsb'_toNat, Nat.shiftRight_eq_div_pow]
  omega

/-- R105: the second word completes the encoding. -/
theorem decodeSecond_encodes {xinst : Bool} {w : Word} {first : FirstWord} {hi2 lo2 : Byte} {i : Instr}
    (hfirst : first.encodes xinst w) (h : decodeSecond first hi2 lo2 = some i) :
    encode i = [w, wordOf hi2 lo2] ∧ wellFormed xinst i = true := by
  unfold decodeSecond at h
  split at h
  case isFalse => cases h
  case isTrue h15 =>
    have h12 : wordOf hi2 lo2 = word12 0b1111#4 (hi2.extractLsb' 0 4 ++ lo2) := by rw [← h15, word12_fields]
    have hhi (k : Byte) : (hi2.extractLsb' 0 4 ++ lo2 ++ k : BitVec 20).extractLsb' 8 12 = hi2.extractLsb' 0 4 ++ lo2 :=
      BitVec.extractLsb'_append_eq_left
    have hlo (k : Byte) : (hi2.extractLsb' 0 4 ++ lo2 ++ k : BitVec 20).extractLsb' 0 8 = k :=
      BitVec.extractLsb'_append_eq_right
    cases first with
    | whole | reserved => cases h
    | movff fs =>
      cases h
      exact ⟨by rw [encode, hfirst, h12], by simp [wellFormed, Instr.isExtended]⟩
    | movsf zs =>
      cases h
      obtain ⟨rfl, rfl⟩ := hfirst
      exact ⟨by rw [encode, h12], rfl⟩
    | movss zs =>
      cases h
      obtain ⟨rfl, rfl⟩ := hfirst
      exact ⟨by rw [encode, h12, movss_fields], rfl⟩
    | call k s =>
      cases h
      exact ⟨by rw [encode, hfirst, h12, hhi, hlo], by simp [wellFormed, Instr.isExtended]⟩
    | goto k =>
      cases h
      exact ⟨by rw [encode, hfirst, h12, hhi, hlo], by simp [wellFormed, Instr.isExtended]⟩
    | lfsr f k =>
      dsimp only at h
      split at h
      case isFalse => cases h
      case isTrue h0 =>
        cases h
        have hk8 : (k ++ lo2 : BitVec 12).extractLsb' 8 4 = k := BitVec.extractLsb'_append_eq_left
        have hk0 : (k ++ lo2 : BitVec 12).extractLsb' 0 8 = lo2 := BitVec.extractLsb'_append_eq_right
        obtain rfl : hi2 = 0b11110000#8 := byte_of_nibbles h15 h0
        exact ⟨by rw [encode, hfirst, hk8, hk0], by simp [wellFormed, Instr.isExtended]⟩

/-- R99: bytes that decode are the encoding of what they decode to, then the rest. -/
theorem encode_decode (xinst : Bool) (bytes : List Byte) (i : Instr) (rest : List Byte)
    (h : decode xinst bytes = .ok (i, rest)) :
    bytes = wordsBytes (encode i) ++ rest ∧ wellFormed xinst i = true := by
  obtain ⟨lo, hi, tail, rfl⟩ : ∃ lo hi tail, bytes = lo :: hi :: tail := by
    match bytes, h with
    | lo :: hi :: tail, _ => exact ⟨lo, hi, tail, rfl⟩
  have hfirst := decodeFirst_encodes xinst hi lo
  obtain ⟨hwhole, rfl⟩ | ⟨hi2, lo2, hsecond, rfl⟩ :=
    decode_ok_cases (w := wordOf hi lo) (by simpa [wordsBytes] using h)
  · rw [wordHi_wordOf, wordLo_wordOf] at hwhole
    rw [hwhole] at hfirst
    obtain ⟨henc, hwf⟩ := hfirst
    exact ⟨by simp [henc, wordsBytes], hwf⟩
  · rw [wordHi_wordOf, wordLo_wordOf] at hsecond
    obtain ⟨henc, hwf⟩ := decodeSecond_encodes hfirst hsecond
    exact ⟨by simp [henc, wordsBytes], hwf⟩

/-- Settles O2, by `encode_decode`: a decoded first word is an encoding, and its second word completes it. -/
theorem encodeDecodeRoundTrip : Obligations.EncodeDecodeRoundTrip :=
  encode_decode

/-! ### The XINST gate -/

/-- Settles O6: what decodes for one value of XINST is the encoding of its instruction (R99), which decodes for every
value for which the instruction is well-formed. -/
theorem xinstGatesOnlyExtended : Obligations.XinstGatesOnlyExtended := by
  intro bytes i rest
  have hcarry (x y : Bool) (hwf : wellFormed y i = true) (h : decode x bytes = .ok (i, rest)) :
      decode y bytes = .ok (i, rest) := by
    obtain ⟨rfl, -⟩ := encode_decode x bytes i rest h
    exact decode_encode y i rest hwf
  refine ⟨fun hext => ?standard, fun hext h => ?extended⟩
  case standard =>
    have hwf (y : Bool) : wellFormed y i = true := by simp [wellFormed, hext]
    exact ⟨hcarry true false (hwf false), hcarry false true (hwf true)⟩
  case extended =>
    obtain ⟨-, hwf⟩ := encode_decode false bytes i rest h
    exact absurd (xinst_of_wellFormed hext hwf) (by decide)

/-- Settles O7: each word evaluated. -/
theorem tableWordsDecode : Obligations.TableWordsDecode :=
  ⟨rfl, rfl, rfl, rfl⟩

end Sys2Proof
end

section
/-! PROOFS. The words that do not decode: reserved first words (R102), malformed second words (R105). -/

namespace Sys2Proof

/-! ### Reserved first words -/

theorem decodeFixed_eq_reserved (xinst : Bool) (lo : Byte) : decodeFixed xinst lo = .reserved ↔
    (lo.toNat = 0x01 ∨ lo.toNat = 0x02 ∨ (0x15 ≤ lo.toNat ∧ lo.toNat ≤ 0xFE)
      ∨ (xinst = false ∧ lo.toNat = 0x14)) := by
  unfold decodeFixed
  split
  case h_19 => cases xinst <;> simp -- CALLW
  case h_21 => -- no row of the FIXED groups
    simp only [imp_false, true_iff] at *
    bv_omega
  all_goals simp

theorem decodeNibble0_eq_reserved (xinst : Bool) (hi lo : Byte) : decodeNibble0 xinst hi lo = .reserved ↔
    hi.extractLsb' 0 4 = 0b0000#4 ∧ decodeFixed xinst lo = .reserved := by
  unfold decodeNibble0
  split
  case h_1 hl => simp [hl]
  case h_13 hl _ _ _ _ _ _ _ _ _ _ _ => simpa using fun h => absurd h hl
  all_goals simp [*]

/-- The upper nibbles 1 to 5 are full. -/
theorem decodeByteD_ne_reserved (hi lo : Byte) (h : 1 ≤ hi.toNat / 16 ∧ hi.toNat / 16 ≤ 5) :
    decodeByteD hi lo ≠ .reserved := by
  unfold decodeByteD
  split
  case h_21 =>
    simp only [imp_false, extractLsb'_top_eq_iff hi (show 2 + 6 = 8 from rfl), BitVec.reduceToNat] at *
    omega
  all_goals nofun

theorem decodeNibble6_ne_reserved (hi lo : Byte) : decodeNibble6 hi lo ≠ .reserved := by
  unfold decodeNibble6
  split <;> nofun

theorem decodeFsrk_ne_reserved (sub : Bool) (lo : Byte) : decodeFsrk sub lo ≠ .reserved := by
  unfold decodeFsrk
  split <;> nofun

theorem decodeMovs_ne_reserved (lo : Byte) : decodeMovs lo ≠ .reserved := by
  unfold decodeMovs
  split <;> nofun

/-- LFSR asks for 00 in bits 7:6 and for a designator that is not 3 (R96 (a), R106 (a)). -/
theorem decodeLfsr_eq_reserved (lo : Byte) : decodeLfsr lo = .reserved ↔ 0x30 ≤ lo.toNat := by
  have hnone : fsrOfBits (lo.extractLsb' 4 2) = none ↔ lo.extractLsb' 4 2 = 0b11#2 := by
    generalize lo.extractLsb' 4 2 = ff
    revert ff
    decide
  rw [extractLsb'_eq_iff] at hnone
  unfold decodeLfsr
  split
  next h00 =>
    rw [extractLsb'_eq_iff] at h00
    cases hf : fsrOfBits (lo.extractLsb' 4 2) with
    | none => simp [hf] at hnone h00 ⊢; omega
    | some f => simp [hf] at hnone h00 ⊢; omega
  next h00 =>
    rw [extractLsb'_eq_iff] at h00
    simp at h00 ⊢
    omega

theorem decodeNibbleE_eq_reserved (xinst : Bool) (hi lo : Byte) : decodeNibbleE xinst hi lo = .reserved ↔
    (xinst = false ∧ 8 ≤ hi.toNat % 16 ∧ hi.toNat % 16 ≤ 11) ∨ (hi.toNat % 16 = 14 ∧ 0x30 ≤ lo.toNat) := by
  have hnibble (l : BitVec 4) : hi.extractLsb' 0 4 = l ↔ hi.toNat % 16 = l.toNat := by
    simp [extractLsb'_eq_iff]
  unfold decodeNibbleE
  split
  case h_16 => -- GOTO: nibble 1111
    simp only [imp_false, hnibble, BitVec.reduceToNat] at *
    simp
    omega
  all_goals
    have hl := (hnibble _).mp ‹_›
    simp only [BitVec.reduceToNat] at hl
    simp only [hl]
  case h_9 | h_10 => cases xinst <;> simp [decodeFsrk_ne_reserved]
  case h_11 => cases xinst <;> simp
  case h_12 => cases xinst <;> simp [decodeMovs_ne_reserved]
  case h_15 => simp [decodeLfsr_eq_reserved]
  all_goals simp

theorem decodeFirst_eq_reserved (xinst : Bool) (hi lo : Byte) : decodeFirst xinst hi lo = .reserved ↔
    (hi.toNat = 0 ∧ decodeFixed xinst lo = .reserved)
      ∨ (hi.toNat / 16 = 14 ∧ decodeNibbleE xinst hi lo = .reserved) := by
  have hnibble (u : BitVec 4) : hi.extractLsb' 4 4 = u ↔ hi.toNat / 16 = u.toNat :=
    extractLsb'_top_eq_iff hi rfl u
  unfold decodeFirst
  split
  case h_12 => -- nibbles 1 to 5
    simp only [imp_false, hnibble, BitVec.reduceToNat] at *
    have hlt := hi.isLt
    have hne := decodeByteD_ne_reserved hi lo (by omega)
    simp only [hne, false_iff]
    omega
  all_goals
    have hu := (hnibble _).mp ‹_›
    simp only [BitVec.reduceToNat] at hu
  case h_1 =>
    have h0 : hi.extractLsb' 0 4 = 0b0000#4 ↔ hi.toNat = 0 := by
      rw [extractLsb'_eq_iff]
      simp
      omega
    simp [decodeNibble0_eq_reserved, h0, hu]
  case h_2 =>
    simp only [decodeNibble6_ne_reserved, false_iff]
    omega
  case h_10 =>
    have h0 : hi.toNat ≠ 0 := by omega
    simp [hu, h0]
  all_goals
    simp
    omega

/-- A reserved first word is what the decoder reports as one. -/
theorem decode_eq_reserved (xinst : Bool) (w : Word) (tail : List Byte) :
    decode xinst (wordsBytes [w] ++ tail) = .error (.reserved w) ↔
      decodeFirst xinst (wordHi w) (wordLo w) = .reserved := by
  simp only [wordsBytes, List.cons_append, List.nil_append, decode, wordOf_wordHi_wordLo]
  split
  next h => simp [h]
  next h => simp [h]
  next hres =>
    have hne : decodeFirst xinst (wordHi w) (wordLo w) ≠ .reserved := hres
    simp only [hne, iff_false]
    split
    · split <;> simp
    · simp

/-- R102: the reserved first words by number. -/
theorem decodeFirst_word_eq_reserved (xinst : Bool) (w : Word) :
    decodeFirst xinst (wordHi w) (wordLo w) = .reserved ↔
      (w.toNat = 0x0001 ∨ w.toNat = 0x0002 ∨ (0x0015 ≤ w.toNat ∧ w.toNat ≤ 0x00FE)
        ∨ (0xEE40 ≤ w.toNat ∧ w.toNat ≤ 0xEEFF) ∨ (0xEE30 ≤ w.toNat ∧ w.toNat ≤ 0xEE3F)
        ∨ (xinst = false ∧ (w.toNat = 0x0014 ∨ (0xE800 ≤ w.toNat ∧ w.toNat ≤ 0xEBFF)))) := by
  have := w.isLt
  rw [decodeFirst_eq_reserved, decodeFixed_eq_reserved, decodeNibbleE_eq_reserved, wordHi_toNat, wordLo_toNat]
  cases xinst <;> simp <;> omega

/-- Settles O3: reserved to the decoder is reserved as a first word, and those are the words listed. -/
theorem reservedFirstWords : Obligations.ReservedFirstWords :=
  fun xinst w tail => (decode_eq_reserved xinst w tail).trans (decodeFirst_word_eq_reserved xinst w)

/-! ### Malformed second words -/

/-- After the first half of a two-word instruction the second word alone tells whether there is one. -/
theorem decode_eq_malformed {xinst : Bool} {w w2 : Word} {rest : List Byte}
    (htwo : isTwoWord xinst w = true) (hres : decodeFirst xinst (wordHi w) (wordLo w) ≠ .reserved) :
    decode xinst (wordsBytes [w, w2] ++ rest) = .error (.malformedSecondWord w2) ↔
      decodeSecond (decodeFirst xinst (wordHi w) (wordLo w)) (wordHi w2) (wordLo w2) = none := by
  have hfits := decodeFirst_fits xinst w
  rw [htwo] at hfits
  simp only [wordsBytes, List.cons_append, List.nil_append, decode, wordOf_wordHi_wordLo]
  split
  next h =>
    rw [h] at hfits
    exact absurd hfits.2 (by decide)
  next h => exact absurd h hres
  next => split <;> simp [*]

/-- R105: a second word is malformed without 1111 in bits 15:12, and LFSR's without 0000 in bits 11:8 too. -/
theorem decodeSecond_eq_none {xinst : Bool} {w : Word} {first : FirstWord} (hi2 lo2 : Byte)
    (henc : first.encodes xinst w) (hfits : first.fits true) (hres : first ≠ .reserved) :
    decodeSecond first hi2 lo2 = none ↔
      (hi2.toNat / 16 ≠ 15 ∨ (w.toNat / 256 = 0xEE ∧ hi2.toNat % 16 ≠ 0)) := by
  have h15 : hi2.extractLsb' 4 4 = 0b1111#4 ↔ hi2.toNat / 16 = 15 := extractLsb'_top_eq_iff hi2 rfl _
  have h0 : hi2.extractLsb' 0 4 = 0b0000#4 ↔ hi2.toNat % 16 = 0 := by simp [extractLsb'_eq_iff]
  have hlt (hi lo : Byte) : (wordOf hi lo).toNat / 256 = hi.toNat := by
    rw [← wordHi_toNat, wordHi_wordOf]
  simp only [decodeSecond, h15, h0]
  cases first with
  | whole i => exact absurd hfits.2 (by decide)
  | reserved => exact absurd rfl hres
  | movff fs =>
    have hw : w.toNat / 256 ≠ 0xEE := by
      rw [henc, word12, hlt, append_toNat]
      have := (fs.extractLsb' 8 4).isLt
      simp only [BitVec.reduceToNat]
      omega
    simp [hw]
  | movsf zs | movss zs =>
    obtain ⟨-, rfl⟩ := henc
    simp [hlt]
  | call k s =>
    obtain rfl := henc
    have hw : (0b1110110#7 ++ bitOfFast s : Byte).toNat ≠ 0xEE := by cases s <;> decide
    simp [hlt, hw]
  | goto k =>
    obtain rfl := henc
    simp [hlt]
  | lfsr f k =>
    obtain rfl := henc
    by_cases h : hi2.toNat % 16 = 0 <;> simp [hlt, h]

/-- Settles O4: not reserved, such a first word is half an instruction, and its second word is malformed as R105
says. -/
theorem malformedSecondWords : Obligations.MalformedSecondWords := by
  intro xinst w w2 rest htwo hnot
  have hres : decodeFirst xinst (wordHi w) (wordLo w) ≠ .reserved := by
    rw [ne_eq, decodeFirst_word_eq_reserved]
    rw [isTwoWord_iff] at htwo
    cases xinst <;> simp at htwo ⊢ <;> omega
  have henc := decodeFirst_encodes xinst (wordHi w) (wordLo w)
  have hfits := decodeFirst_fits xinst w
  rw [htwo] at hfits
  rw [wordOf_wordHi_wordLo] at henc
  have hw2 := w2.isLt
  rw [decode_eq_malformed htwo hres, decodeSecond_eq_none _ _ henc hfits hres, wordHi_toNat]
  omega

end Sys2Proof
end

section
/-! PROOFS. What an instruction can change. The state is taken apart into named parts; every instruction leaves each
part as it was, but those in its footprint and those its one store goes to. -/

namespace Sys2Proof.Machine

/-! ### The parts of the state -/

/-- What the statements about writers speak of (R21 to R26, R31, R35, R37, R41 to R43, R74, R82). -/
inductive Part where
  | cfg | prog
  | flagN | flagOv | flagZ | flagDc | flagC
  | bsr | prodh | prodl
  | stack | stackFlags | shadow
  | tblptr | tablat | holding
  | intcon | rcon | wdt | asleep
  | ramByte (addr : DataAddr)
  | outputs | env | ramEpoch

/-- A part holds the same in two states. -/
def Part.same (s t : State) : Part → Prop
  | .cfg => t.cfg = s.cfg
  | .prog => t.prog = s.prog
  | .flagN => t.flags.n = s.flags.n
  | .flagOv => t.flags.ov = s.flags.ov
  | .flagZ => t.flags.z = s.flags.z
  | .flagDc => t.flags.dc = s.flags.dc
  | .flagC => t.flags.c = s.flags.c
  | .bsr => t.bsr = s.bsr
  | .prodh => t.prodh = s.prodh
  | .prodl => t.prodl = s.prodl
  | .stack => t.stack = s.stack
  | .stackFlags => t.stkful = s.stkful ∧ t.stkunf = s.stkunf
  | .shadow => t.ws = s.ws ∧ t.statuss = s.statuss ∧ t.bsrs = s.bsrs
  | .tblptr => t.tblptr = s.tblptr
  | .tablat => t.tablat = s.tablat
  | .holding => t.holding = s.holding
  | .intcon => t.intcon = s.intcon
  | .rcon => t.rcon = s.rcon
  | .wdt => t.wdt = s.wdt ∧ t.wdtPost = s.wdtPost
  | .asleep => t.asleep = s.asleep
  | .ramByte addr => t.ramByte addr = s.ramByte addr
  | .outputs => t.outputs = s.outputs
  | .env => t.env = s.env
  | .ramEpoch => t.ramEpoch = s.ramEpoch

/-- A store to a place goes into a part. -/
def Part.stores (p : Place) : Part → Prop
  | .flagN | .flagOv | .flagZ | .flagDc | .flagC => p = .sfr .status
  | .bsr => p = .sfr .bsr
  | .prodh => p = .sfr .prodh
  | .prodl => p = .sfr .prodl
  | .stack => p = .sfr .tosu ∨ p = .sfr .tosh ∨ p = .sfr .tosl
  | .tblptr => p = .sfr .tblptru ∨ p = .sfr .tblptrh ∨ p = .sfr .tblptrl
  | .tablat => p = .sfr .tablat
  | .intcon => p = .sfr .intcon
  | .rcon => p = .sfr .rcon
  | .ramByte addr => p = .ram addr
  | .outputs => ∃ addr, p = .peripheral addr
  | .cfg | .prog | .stackFlags | .shadow | .holding | .wdt | .asleep | .env | .ramEpoch => False

/-- The instructions that write BSR by their own meaning, a store to data memory apart (R22). -/
def writesBsr : Instr → Bool
  | .movlb _ | .ret true | .retfie true | .reset => true
  | _ => false

/-- The instructions that write PRODH and PRODL (R37). -/
def writesProd : Instr → Bool
  | .mulwf _ _ | .mullw _ | .reset => true
  | _ => false

/-- The instructions that push, pop or empty the return stack (R31). -/
def writesStack : Instr → Bool
  | .call _ _ | .rcall _ | .callw | .push | .ret _ | .retfie _ | .retlw _ | .pop | .addulnk _ | .subulnk _
  | .reset => true
  | _ => false

/-- The instructions that write the shadow registers (R35). -/
def writesShadow : Instr → Bool
  | .call _ true | .reset => true
  | _ => false

/-- The instructions that move TBLPTR (R41). -/
def writesTblptr : Instr → Bool
  | .tblrdPostInc | .tblrdPostDec | .tblrdPreInc | .tblwtPostInc | .tblwtPostDec | .tblwtPreInc | .reset => true
  | _ => false

/-- The instructions that write TABLAT (R41). -/
def writesTablat : Instr → Bool
  | .tblrd | .tblrdPostInc | .tblrdPostDec | .tblrdPreInc | .reset => true
  | _ => false

/-- The instructions that write a holding register (R42). -/
def writesHolding : Instr → Bool
  | .tblwt | .tblwtPostInc | .tblwtPostDec | .tblwtPreInc | .reset => true
  | _ => false

/-- The instructions that write INTCON (R26). -/
def writesIntcon : Instr → Bool
  | .retfie _ | .reset => true
  | _ => false

/-- The instructions that clear the Watchdog and write TO and PD (R25, R43). -/
def writesWatchdog : Instr → Bool
  | .clrwdt | .sleep | .reset => true
  | _ => false

/-- The instructions that put the processor to sleep or wake it (R43). -/
def writesAsleep : Instr → Bool
  | .sleep | .reset => true
  | _ => false

/-- The parts an instruction writes by its own meaning, a store to data memory apart. -/
def footprint (i : Instr) : Part → Bool
  | .flagN => (flagsAffected i).n
  | .flagOv => (flagsAffected i).ov
  | .flagZ => (flagsAffected i).z
  | .flagDc => (flagsAffected i).dc
  | .flagC => (flagsAffected i).c
  | .bsr => writesBsr i
  | .prodh | .prodl => writesProd i
  | .stack => writesStack i
  | .shadow => writesShadow i
  | .tblptr => writesTblptr i
  | .tablat => writesTablat i
  | .holding => writesHolding i
  | .intcon => writesIntcon i
  | .rcon | .wdt => writesWatchdog i
  | .asleep => writesAsleep i
  | .cfg | .prog | .stackFlags | .ramByte _ | .outputs | .env | .ramEpoch => false

theorem Part.same_refl (s : State) (part : Part) : part.same s s := by
  cases part with
  | stackFlags => exact ⟨rfl, rfl⟩
  | shadow => exact ⟨rfl, rfl, rfl⟩
  | wdt => exact ⟨rfl, rfl⟩
  | _ => rfl

theorem Part.same_trans {s t u : State} {part : Part} (h : part.same s t) (h' : part.same t u) : part.same s u := by
  cases part with
  | stackFlags =>
    obtain ⟨hf, hu⟩ := h
    obtain ⟨hf', hu'⟩ := h'
    exact ⟨hf'.trans hf, hu'.trans hu⟩
  | shadow =>
    obtain ⟨hw, hst, hb⟩ := h
    obtain ⟨hw', hst', hb'⟩ := h'
    exact ⟨hw'.trans hw, hst'.trans hst, hb'.trans hb⟩
  | wdt =>
    obtain ⟨hw, hp⟩ := h
    obtain ⟨hw', hp'⟩ := h'
    exact ⟨hw'.trans hw, hp'.trans hp⟩
  | _ => exact Eq.trans h' h

/-- A store to a place changes the part it goes into. -/
theorem Part.same_afterWrite (s : State) (v : Byte) (p : Place) {part : Part} (h : ¬ part.stores p) :
    part.same s (s.afterWrite v p) := by
  cases part with
  | flagN => exact congrArg Flags.n (s.afterWrite_flags v p h)
  | flagOv => exact congrArg Flags.ov (s.afterWrite_flags v p h)
  | flagZ => exact congrArg Flags.z (s.afterWrite_flags v p h)
  | flagDc => exact congrArg Flags.dc (s.afterWrite_flags v p h)
  | flagC => exact congrArg Flags.c (s.afterWrite_flags v p h)
  | bsr => exact s.afterWrite_bsr v p h
  | prodh => exact s.afterWrite_prodh v p h
  | prodl => exact s.afterWrite_prodl v p h
  | stack =>
    simp only [Part.stores, not_or] at h
    obtain ⟨hu, hh, hl⟩ := h
    exact s.afterWrite_stack v p hu hh hl
  | tblptr =>
    simp only [Part.stores, not_or] at h
    obtain ⟨hu, hh, hl⟩ := h
    exact s.afterWrite_tblptr v p hu hh hl
  | tablat => exact s.afterWrite_tablat v p h
  | intcon => exact s.afterWrite_intcon v p h
  | rcon => exact s.afterWrite_rcon v p h
  | ramByte addr => exact s.afterWrite_ramByte v p addr h
  | outputs => exact s.afterWrite_outputs v p fun addr hp => h ⟨addr, hp⟩
  | cfg | prog | stackFlags | shadow | holding | wdt | asleep | env | ramEpoch => simp [Part.same]

/-! ### The invariant, part by part -/

/-- The invariant goes from a state to one with the same memories and parameters, as many holding registers, an even
PC and a stack within its depth. -/
theorem State.Inv.carry {s t : State} (h : s.Inv) (hcfg : t.cfg = s.cfg) (hprog : t.prog = s.prog)
    (hram : t.ram = s.ram) (houtputs : t.outputs = s.outputs) (hholding : t.holding.length = s.holding.length)
    (hpc : s.pc.getLsbD 0 = false → t.pc.getLsbD 0 = false)
    (hstack : s.stack.length ≤ s.cfg.stackDepth → t.stack.length ≤ s.cfg.stackDepth) : t.Inv := by
  obtain ⟨hwf, heven, hdepth, hramWf, hramIn, hprogWf, hprogIn, houtIn, hhold⟩ := h
  refine ⟨?_, hpc heven, ?_, ?_, ?_, ?_, ?_, ?_, ?_⟩
  · rwa [hcfg]
  · rw [hcfg]; exact hstack hdepth
  · rwa [hram]
  · rwa [hram, hcfg]
  · rwa [hprog]
  · rwa [hprog]
  · rwa [houtputs]
  · rw [hholding, hcfg, hhold]

/-- A store to a place that an address has keeps the invariant (R21, R61, R74). -/
theorem State.Inv.afterWrite {s : State} (h : s.Inv) (v : Byte) (addr : DataAddr) :
    (s.afterWrite v (placeAt s.cfg addr)).Inv := by
  have heven := s.afterWrite_pc_even v (placeAt s.cfg addr)
  have hlength := s.afterWrite_stack_length v (placeAt s.cfg addr)
  have hbounds := fun b => placeAt_bounds s.cfg addr b
  generalize placeAt s.cfg addr = p at heven hlength hbounds
  cases p with
  | ram b =>
    obtain ⟨rfl, hin⟩ := (hbounds b).1 rfl
    obtain ⟨hwf, hpc, hdepth, hramWf, hramIn, hrest⟩ := h
    refine ⟨hwf, hpc, hdepth, Memory.store_wf none _ _ _ hramWf, fun c hc => ?_, hrest⟩
    obtain rfl | hc := Memory.mem_store none s.ram _ _ c hc
    · exact ⟨b.isLt, by rwa [BitVec.ofNat_toNat, BitVec.setWidth_eq]⟩
    · exact hramIn c hc
  | peripheral b =>
    obtain ⟨rfl, hin⟩ := (hbounds b).2 rfl
    obtain ⟨hwf, hpc, hdepth, hramWf, hramIn, hprogWf, hprogIn, houtIn, hhold⟩ := h
    refine ⟨hwf, hpc, hdepth, hramWf, hramIn, hprogWf, hprogIn, fun c hc => ?_, hhold⟩
    obtain rfl | hc := List.mem_cons.mp hc
    · exact ⟨hin, b.isLt⟩
    · exact houtIn c hc
  | sfr r =>
    refine h.carry (by simp) (by simp) ?_ (s.afterWrite_outputs v _ nofun) (by simp) heven (by rw [hlength]; exact id)
    cases r <;> simp [State.afterWrite, State.writeSfr]
  | nowhere => exact h
  | unimplemented b => exact h

/-! ### What a step of a meaning keeps -/

/-- From one state to the next only the footprint of the instruction changes, and the invariant is kept. -/
structure Keeps (i : Instr) (s t : State) : Prop where
  same : ∀ part, footprint i part = false → part.same s t
  inv : s.Inv → t.Inv

theorem Keeps.refl (i : Instr) (s : State) : Keeps i s s := ⟨fun part _ => part.same_refl s, id⟩

theorem Keeps.trans {i : Instr} {s t u : State} (h : Keeps i s t) (h' : Keeps i t u) : Keeps i s u :=
  ⟨fun part hp => Part.same_trans (h.same part hp) (h'.same part hp), h'.inv ∘ h.inv⟩

/-- An update of registers that are in no part and of the PC, which stays even. -/
theorem Keeps.of_same {s t : State} (i : Instr) (hsame : ∀ part : Part, part.same s t) (hram : t.ram = s.ram)
    (hpc : s.pc.getLsbD 0 = false → t.pc.getLsbD 0 = false) : Keeps i s t := by
  have hstack : t.stack = s.stack := hsame .stack
  have hholding : t.holding = s.holding := hsame .holding
  exact ⟨fun part _ => hsame part, fun h => h.carry (hsame .cfg) (hsame .prog) hram (hsame .outputs)
    (by rw [hholding]) hpc (by rw [hstack]; exact id)⟩

/-- An update inside the footprint that leaves the PC and what the invariant speaks of. -/
theorem Keeps.of_footprint {i : Instr} {s t : State} (hsame : ∀ part, footprint i part = false → part.same s t)
    (hcfg : t.cfg = s.cfg) (hprog : t.prog = s.prog) (hram : t.ram = s.ram) (houtputs : t.outputs = s.outputs)
    (hholding : t.holding.length = s.holding.length) (hpc : t.pc = s.pc) (hstack : t.stack = s.stack) :
    Keeps i s t :=
  ⟨hsame, fun h => h.carry hcfg hprog hram houtputs hholding (by rw [hpc]; exact id) (by rw [hstack]; exact id)⟩

/-! ### One rule for each update -/

theorem keeps_setPc (i : Instr) (s : State) (a : ProgAddr) : Keeps i s (s.setPc a) :=
  .of_same i (fun part => by cases part <;> simp [Part.same, State.ramByte]) rfl fun _ => s.setPc_even a

theorem keeps_advance (i : Instr) (s : State) (n : ProgAddr) : Keeps i s (s.advance n) := keeps_setPc i s _

theorem keeps_wreg (i : Instr) (s : State) (v : Byte) : Keeps i s { s with w := v } :=
  .of_same i (fun part => by cases part <;> simp [Part.same, State.ramByte]) rfl id

theorem keeps_setFsr (i : Instr) (s : State) (n : Fsr) (v : DataAddr) : Keeps i s (s.setFsr n v) :=
  .of_same i (fun part => by cases part <;> simp [Part.same, State.ramByte]) (by simp) (by simp)

theorem keeps_afterRead (i : Instr) (s : State) (p : Place) : Keeps i s (s.afterRead p) :=
  .of_same i (fun part => by cases part <;> simp [Part.same, State.ramByte]) (by simp) (by simp)

theorem keeps_resolve (i : Instr) (s : State) (addr : DataAddr) : Keeps i s (s.resolve addr).2 := by
  obtain ⟨n, v, h⟩ := s.resolve_state addr
  exact h ▸ keeps_setFsr i s n v

theorem keeps_operand (i : Instr) (s : State) (f : Byte) (a : Access) : Keeps i s (s.operand f a).2 := by
  obtain ⟨n, v, h⟩ := s.operand_state f a
  exact h ▸ keeps_setFsr i s n v

theorem keeps_afterOperandRead (i : Instr) (s : State) (f : Byte) (a : Access) :
    Keeps i s (s.afterOperandRead f a) :=
  (keeps_operand i s f a).trans (keeps_afterRead i _ _)

theorem keeps_skipIf {s t : State} {c : Bool} (i : Instr) (h : s.skipIf c = .ok t) : Keeps i s t := by
  obtain rfl | rfl | rfl := s.skipIf_eq_ok t c h <;> exact keeps_advance i s _

/-- The flags that an instruction does not affect are kept (R24). -/
def FlagsKept (i : Instr) (old new : Flags) : Prop :=
  ((flagsAffected i).n = false → new.n = old.n) ∧ ((flagsAffected i).ov = false → new.ov = old.ov)
    ∧ ((flagsAffected i).z = false → new.z = old.z) ∧ ((flagsAffected i).dc = false → new.dc = old.dc)
    ∧ ((flagsAffected i).c = false → new.c = old.c)

theorem FlagsKept.refl (i : Instr) (fl : Flags) : FlagsKept i fl fl :=
  ⟨fun _ => rfl, fun _ => rfl, fun _ => rfl, fun _ => rfl, fun _ => rfl⟩

theorem FlagsKept.of_all {i : Instr} (h : flagsAffected i = { n := true, ov := true, z := true, dc := true, c := true })
    (old new : Flags) : FlagsKept i old new := by
  simp [FlagsKept, h]

theorem FlagsKept.of_zn {i : Instr} (hn : (flagsAffected i).n = true) (hz : (flagsAffected i).z = true) (r : Byte)
    (fl : Flags) : FlagsKept i fl (setZN r fl) := by
  simp [FlagsKept, hn, hz]

theorem FlagsKept.of_czn {i : Instr} (hn : (flagsAffected i).n = true) (hz : (flagsAffected i).z = true)
    (hc : (flagsAffected i).c = true) (c : Bool) (r : Byte) (fl : Flags) : FlagsKept i fl (setCZN c r fl) := by
  simp [FlagsKept, setCZN, hn, hz, hc]

theorem FlagsKept.of_c {i : Instr} (hc : (flagsAffected i).c = true) (fl : Flags) (c : Bool) :
    FlagsKept i fl { fl with c := c } := by
  simp [FlagsKept, hc]

theorem keeps_flags {i : Instr} (s : State) {fl : Flags} (h : FlagsKept i s.flags fl) :
    Keeps i s { s with flags := fl } := by
  obtain ⟨hn, hov, hz, hdc, hc⟩ := h
  refine .of_footprint (fun part hp => ?_) rfl rfl rfl rfl rfl rfl rfl
  cases part with
  | flagN => exact hn hp
  | flagOv => exact hov hp
  | flagZ => exact hz hp
  | flagDc => exact hdc hp
  | flagC => exact hc hp
  | _ => simp [Part.same, State.ramByte]

theorem keeps_bsr {i : Instr} (h : footprint i .bsr = true) (s : State) (v : BitVec 4) :
    Keeps i s { s with bsr := v } :=
  .of_footprint (fun part hp => by cases part <;> simp_all [Part.same, State.ramByte]) rfl rfl rfl rfl rfl rfl rfl

theorem keeps_setProd {i : Instr} (hh : footprint i .prodh = true) (hl : footprint i .prodl = true) (s : State)
    (x y : Byte) : Keeps i s (s.setProd x y) :=
  .of_footprint (fun part hp => by cases part <;> simp_all [Part.same, State.ramByte]) rfl rfl rfl rfl rfl rfl rfl

theorem keeps_saveFast {i : Instr} (h : footprint i .shadow = true) (s : State) : Keeps i s s.saveFast :=
  .of_footprint (fun part hp => by cases part <;> simp_all [Part.same, State.ramByte]) rfl rfl rfl rfl rfl rfl rfl

theorem keeps_tblptr {i : Instr} (s : State) (v : ProgAddr) (h : footprint i .tblptr = false → v = s.tblptr) :
    Keeps i s { s with tblptr := v } :=
  .of_footprint (fun part hp => by cases part <;> simp_all [Part.same, State.ramByte]) rfl rfl rfl rfl rfl rfl rfl

theorem keeps_tablat {i : Instr} (h : footprint i .tablat = true) (s : State) (v : Byte) :
    Keeps i s { s with tablat := v } :=
  .of_footprint (fun part hp => by cases part <;> simp_all [Part.same, State.ramByte]) rfl rfl rfl rfl rfl rfl rfl

theorem keeps_holding {i : Instr} (h : footprint i .holding = true) (s : State) (n : Nat) (v : Byte) :
    Keeps i s { s with holding := s.holding.set n v } :=
  .of_footprint (fun part hp => by cases part <;> simp_all [Part.same, State.ramByte]) rfl rfl rfl rfl
    List.length_set rfl rfl

theorem keeps_intcon {i : Instr} (h : footprint i .intcon = true) (s : State) (v : Byte) :
    Keeps i s { s with intcon := v } :=
  .of_footprint (fun part hp => by cases part <;> simp_all [Part.same, State.ramByte]) rfl rfl rfl rfl rfl rfl rfl

theorem keeps_rcon {i : Instr} (h : footprint i .rcon = true) (s : State) (v : Byte) :
    Keeps i s { s with rcon := v } :=
  .of_footprint (fun part hp => by cases part <;> simp_all [Part.same, State.ramByte]) rfl rfl rfl rfl rfl rfl rfl

theorem keeps_wdt {i : Instr} (h : footprint i .wdt = true) (s : State) (n m : Nat) :
    Keeps i s { s with wdt := n, wdtPost := m } :=
  .of_footprint (fun part hp => by cases part <;> simp_all [Part.same, State.ramByte]) rfl rfl rfl rfl rfl rfl rfl

theorem keeps_asleep {i : Instr} (h : footprint i .asleep = true) (s : State) (b : Bool) :
    Keeps i s { s with asleep := b } :=
  .of_footprint (fun part hp => by cases part <;> simp_all [Part.same, State.ramByte]) rfl rfl rfl rfl rfl rfl rfl

/-- A push that has room (R33). -/
theorem keeps_push {i : Instr} (h : footprint i .stack = true) {s : State}
    (hroom : s.stack.length < s.cfg.stackDepth) (v : ProgAddr) : Keeps i s { s with stack := v :: s.stack } :=
  ⟨fun part hp => by cases part <;> simp_all [Part.same, State.ramByte],
    fun hinv => hinv.carry rfl rfl rfl rfl rfl id fun _ => hroom⟩

/-- A pop of what is there (R34). -/
theorem keeps_pop {i : Instr} (h : footprint i .stack = true) {s : State} {v : ProgAddr} {rest : List ProgAddr}
    (hs : s.stack = v :: rest) : Keeps i s { s with stack := rest } :=
  ⟨fun part hp => by cases part <;> simp_all [Part.same, State.ramByte],
    fun hinv => hinv.carry rfl rfl rfl rfl rfl id fun hdepth => by
      rw [hs] at hdepth
      exact Nat.le_of_succ_le hdepth⟩

/-- The fast restore, where W, the flags and BSR may be written (R35). -/
theorem keeps_restoreFast {i : Instr} {fast : Bool} (hbsr : fast = true → footprint i .bsr = true)
    (hflags : fast = true →
      flagsAffected i = { n := true, ov := true, z := true, dc := true, c := true }) (s : State) :
    Keeps i s (s.restoreFast fast) := by
  cases fast with
  | false => exact .refl i s
  | true =>
    exact ((keeps_wreg i s s.ws).trans (keeps_flags _ (.of_all (hflags rfl) _ _))).trans (keeps_bsr (hbsr rfl) _ _)

/-- RESET writes all but RAM, what the environment sees and offers, and the stack flags (R187, R282). -/
theorem keeps_resetTo (s : State) (c : ResetColumn) : Keeps .reset s (s.resetTo c) := by
  refine ⟨fun part hp => ?_, fun hinv => ?_⟩
  · cases part with
    | cfg | prog | outputs | env | ramEpoch | ramByte addr => rfl
    | stackFlags => exact ⟨rfl, rfl⟩
    | _ => cases hp
  · exact hinv.carry rfl rfl rfl rfl (ResetTo.loadAll_length _ _ _) (fun _ => (s.setPc_even _))
      fun _ => Nat.zero_le _

end Sys2Proof.Machine
end

section
/-! PROOFS. What an instruction does: inside its footprint, with one store to data memory at most. -/

namespace Sys2Proof.Machine

/-! ### One store at most -/

/-- The state after a byte is stored at a place, if there is one. -/
def State.storeAt (s : State) (v : Byte) : Option Place → State
  | none => s
  | some p => s.afterWrite v p

/-- From `s` to `t` an instruction keeps what is outside its footprint, but for one store at its `storePlace`. -/
def Does (i : Instr) (s t : State) : Prop :=
  ∃ (u : State) (v : Byte), Keeps i s u ∧ Keeps i (u.storeAt v (storePlace i s)) t

/-- An instruction that stores nothing. -/
theorem Does.of_keeps {i : Instr} {s t : State} (hstore : storePlace i s = none) (h : Keeps i s t) : Does i s t :=
  ⟨t, 0#8, h, by rw [hstore]; exact .refl i t⟩

/-- An instruction that ends with its store. -/
theorem Does.of_store {i : Instr} {s u : State} {p : Place} (hstore : storePlace i s = some p) (h : Keeps i s u)
    (v : Byte) : Does i s (u.afterWrite v p) :=
  ⟨u, v, h, by rw [hstore]; exact .refl i _⟩

/-- What follows the store. -/
theorem Does.trans_keeps {i : Instr} {s t t' : State} (h : Does i s t) (h' : Keeps i t t') : Does i s t' := by
  obtain ⟨u, v, hu, ht⟩ := h
  exact ⟨u, v, hu, ht.trans h'⟩

/-- A result put where d says (R64). -/
theorem Does.of_dest {i : Instr} {s u : State} {d : Dest} {p : Place}
    (hstore : storePlace i s = if (d == .file) = true then some p else none) (h : Keeps i s u) (v : Byte) :
    Does i s (u.afterDest d p v) := by
  cases d with
  | wreg => exact .of_keeps hstore (h.trans (keeps_wreg i u v))
  | file => exact .of_store hstore h v

/-! ### The instruction shapes -/

theorem fileOp_does {i : Instr} {op : State → Byte → Byte × (Flags → Flags)} {f : Byte} {d : Dest} {a : Access}
    {s t : State} (hstore : storePlace i s = if (d == .file) = true then some (s.operand f a).1 else none)
    (hflags : ∀ u x fl, FlagsKept i fl ((op u x).2 fl)) (h : fileOp op f d a s = .next t) : Does i s t := by
  obtain ⟨-, rfl⟩ := fileOp_eq_next op f d a s t h
  have hread := (keeps_afterOperandRead i s f a).trans (keeps_advance i _ 2#21)
  exact (Does.of_dest hstore hread _).trans_keeps (keeps_flags _ (hflags _ _ _))

theorem fileStore_does {i : Instr} {v : State → Byte} {upd : Flags → Flags} {f : Byte} {a : Access} {s t : State}
    (hstore : storePlace i s = some (s.operand f a).1) (hflags : ∀ fl, FlagsKept i fl (upd fl))
    (h : fileStore v upd f a s = .next t) : Does i s t := by
  obtain ⟨-, rfl⟩ := fileStore_eq_next v upd f a s t h
  have hmoved := (keeps_operand i s f a).trans (keeps_advance i _ 2#21)
  exact (Does.of_store hstore hmoved _).trans_keeps (keeps_flags _ (hflags _))

theorem testSkip_does {i : Instr} {cond : State → Byte → Bool} {f : Byte} {a : Access} {s t : State}
    (hstore : storePlace i s = none) (h : testSkip cond f a s = .next t) : Does i s t := by
  obtain ⟨-, hskip⟩ := testSkip_eq_next cond f a s t h
  exact .of_keeps hstore ((keeps_afterOperandRead i s f a).trans (keeps_skipIf i hskip))

theorem changeSkip_does {i : Instr} {op : Byte → Byte} {cond : Byte → Bool} {f : Byte} {d : Dest} {a : Access}
    {s t : State} (hstore : storePlace i s = if (d == .file) = true then some (s.operand f a).1 else none)
    (h : changeSkip op cond f d a s = .next t) : Does i s t := by
  obtain ⟨-, -, hskip⟩ := changeSkip_eq_next op cond f d a s t h
  exact (Does.of_dest hstore (keeps_afterOperandRead i s f a) _).trans_keeps (keeps_skipIf i hskip)

theorem bitWrite_does {i : Instr} {op : Byte → Byte} {f : Byte} {a : Access} {s t : State}
    (hstore : storePlace i s = some (s.operand f a).1) (h : bitWrite op f a s = .next t) : Does i s t := by
  obtain ⟨-, rfl⟩ := bitWrite_eq_next op f a s t h
  exact .of_store hstore ((keeps_afterOperandRead i s f a).trans (keeps_advance i _ 2#21)) _

theorem bitSkip_does {i : Instr} {want : Bool} {f : Byte} {b : BitVec 3} {a : Access} {s t : State}
    (hstore : storePlace i s = none) (h : bitSkip want f b a s = .next t) : Does i s t := by
  obtain ⟨-, hskip⟩ := bitSkip_eq_next want f b a s t h
  exact .of_keeps hstore ((keeps_afterOperandRead i s f a).trans (keeps_skipIf i hskip))

theorem literalOp_keeps {i : Instr} {r : Byte × (Flags → Flags)} {s t : State} (hflags : FlagsKept i s.flags (r.2 s.flags))
    (h : literalOp r s = .next t) : Keeps i s t := by
  cases h
  exact ((keeps_wreg i s r.1).trans (keeps_flags _ hflags)).trans (keeps_advance i _ _)

theorem branchIf_keeps {cond : Bool} {n : Byte} {s t : State} (i : Instr) (h : branchIf cond n s = .next t) :
    Keeps i s t := by
  cases h
  split
  · exact keeps_setPc i s _
  · exact keeps_advance i s _

theorem tableReadOp_keeps {i : Instr} {before after : ProgAddr} {s t : State} (htablat : footprint i .tablat = true)
    (htblptr : footprint i .tblptr = false → before = 0#21 ∧ after = 0#21) (h : tableReadOp before after s = .next t) :
    Keeps i s t := by
  obtain ⟨-, rfl⟩ := (tableReadOp_eq_next before after s t).mp h
  have hmove : footprint i .tblptr = false → s.tblptr + before + after = s.tblptr := fun hf => by
    obtain ⟨rfl, rfl⟩ := htblptr hf
    simp
  exact ((keeps_tablat htablat s (s.progByte (s.tblptr + before))).trans (keeps_tblptr _ _ hmove)).trans (keeps_advance i _ _)

theorem tableWriteOp_keeps {i : Instr} {before after : ProgAddr} {s t : State}
    (hholding : footprint i .holding = true)
    (htblptr : footprint i .tblptr = false → before = 0#21 ∧ after = 0#21)
    (h : tableWriteOp before after s = .next t) : Keeps i s t := by
  rw [tableWriteOp_eq] at h
  cases h
  have hmove : footprint i .tblptr = false → s.tblptr + before + after = s.tblptr := fun hf => by
    obtain ⟨rfl, rfl⟩ := htblptr hf
    simp
  exact ((keeps_holding hholding s _ _).trans (keeps_tblptr _ _ hmove)).trans (keeps_advance i _ _)

/-- A pop into the PC (R189, R190). -/
theorem popPc_keeps {i : Instr} {s t : State} (hstack : footprint i .stack = true) (h : s.popPc = .ok t) :
    Keeps i s t := by
  obtain ⟨v, rest, hs, rfl⟩ := (State.popPc_eq_ok s t).mp h
  exact (keeps_pop hstack hs).trans (keeps_setPc i _ v)

/-! ### Every instruction -/

/-- What each of the 84 instructions does, by the shared operation its meaning calls. -/
theorem exec_does (i : Instr) (s t : State) (h : exec i s = .next t) : Does i s t := by
  cases i with
  -- the BYTE format with a d bit
  | addwf | addwfc | decf | incf | subfwb | subwf | subwfb =>
    simp only [exec_addwf, exec_addwfc, exec_decf, exec_incf, exec_subfwb, exec_subwf, exec_subwfb] at h
    exact fileOp_does rfl (fun _ _ _ => .of_all rfl _ _) h
  | andwf | comf | iorwf | movf | xorwf | rlncf | rrncf =>
    simp only [exec_andwf, exec_comf, exec_iorwf, exec_movf, exec_xorwf, exec_rlncf, exec_rrncf] at h
    exact fileOp_does rfl (fun _ _ _ => .of_zn rfl rfl _ _) h
  | rlcf | rrcf =>
    simp only [exec_rlcf, exec_rrcf] at h
    exact fileOp_does rfl (fun _ _ _ => .of_czn rfl rfl rfl _ _ _) h
  | swapf =>
    rw [exec_swapf] at h
    exact fileOp_does rfl (fun _ _ _ => .refl _ _) h
  | decfsz | dcfsnz | incfsz | infsnz =>
    simp only [exec_decfsz, exec_dcfsnz, exec_incfsz, exec_infsnz] at h
    exact changeSkip_does rfl h
  -- the BYTE_A format
  | negf =>
    rw [exec_negf] at h
    exact fileOp_does rfl (fun _ _ _ => .of_all rfl _ _) h
  | clrf =>
    rw [exec_clrf] at h
    exact fileStore_does rfl (fun _ => by simp [FlagsKept, flagsAffected]) h
  | movwf | setf =>
    simp only [exec_movwf, exec_setf] at h
    exact fileStore_does rfl (fun _ => .refl _ _) h
  | cpfseq | cpfsgt | cpfslt | tstfsz =>
    simp only [exec_cpfseq, exec_cpfsgt, exec_cpfslt, exec_tstfsz] at h
    exact testSkip_does rfl h
  | mulwf f a =>
    obtain ⟨-, rfl⟩ := (exec_mulwf_eq_next f a s t).mp h
    exact .of_keeps rfl (((keeps_afterOperandRead _ s f a).trans (keeps_setProd rfl rfl _ _ _)).trans
      (keeps_advance _ _ _))
  -- the BIT format
  | bcf | bsf | btg =>
    simp only [exec_bcf, exec_bsf, exec_btg] at h
    exact bitWrite_does rfl h
  | btfsc | btfss =>
    simp only [exec_btfsc, exec_btfss] at h
    exact bitSkip_does rfl h
  -- moves between places
  | movff fs fd =>
    obtain ⟨-, -, -, rfl⟩ := exec_movff_eq_next fs fd s t h
    exact .of_store rfl ((((keeps_resolve _ s fs).trans (keeps_afterRead _ _ _)).trans (keeps_advance _ _ _)).trans
      (keeps_resolve _ _ fd)) _
  | movsf zs fd =>
    obtain ⟨-, -, -, rfl⟩ := exec_movsf_eq_next zs fd s t h
    exact .of_store rfl (((keeps_afterRead _ s _).trans (keeps_advance _ _ _)).trans (keeps_resolve _ _ fd)) _
  | movss zs zd x =>
    obtain ⟨hsome, rfl⟩ | ⟨hnone, -, rfl⟩ := exec_movss_eq_next zs zd x s t h
    · obtain ⟨q, hq⟩ := Option.ne_none_iff_exists'.mp hsome
      exact .of_keeps (by simp [storePlace, hq]) (keeps_advance _ s _)
    · exact .of_store (by simp [storePlace, hnone]) ((keeps_afterRead _ s _).trans (keeps_advance _ _ _)) _
  | pushl k =>
    obtain ⟨-, rfl⟩ := (exec_pushl_eq_next k s t).mp h
    exact (Does.of_store rfl ((keeps_advance _ s _).trans (keeps_resolve _ _ _)) k).trans_keeps
      (keeps_setFsr _ _ .fsr2 _)
  -- literals and FSRs
  | addlw | sublw =>
    simp only [exec_addlw, exec_sublw] at h
    exact .of_keeps rfl (literalOp_keeps (.of_all rfl _ _) h)
  | andlw | iorlw | xorlw =>
    simp only [exec_andlw, exec_iorlw, exec_xorlw] at h
    exact .of_keeps rfl (literalOp_keeps (.of_zn rfl rfl _ _) h)
  | movlw =>
    rw [exec_movlw] at h
    exact .of_keeps rfl (literalOp_keeps (.refl _ _) h)
  | mullw k =>
    cases h
    exact .of_keeps rfl ((keeps_setProd rfl rfl s _ _).trans (keeps_advance _ _ _))
  | movlb k =>
    cases h
    exact .of_keeps rfl ((keeps_bsr rfl s _).trans (keeps_advance _ _ _))
  | lfsr f k | addfsr f k | subfsr f k =>
    cases h
    exact .of_keeps rfl ((keeps_setFsr _ s f _).trans (keeps_advance _ _ _))
  -- table instructions
  | tblrd => exact .of_keeps rfl (tableReadOp_keeps rfl (fun _ => ⟨rfl, rfl⟩) h)
  | tblrdPostInc | tblrdPostDec | tblrdPreInc => exact .of_keeps rfl (tableReadOp_keeps rfl nofun h)
  | tblwt => exact .of_keeps rfl (tableWriteOp_keeps rfl (fun _ => ⟨rfl, rfl⟩) h)
  | tblwtPostInc | tblwtPostDec | tblwtPreInc => exact .of_keeps rfl (tableWriteOp_keeps rfl nofun h)
  -- branches, calls and returns
  | bc | bn | bnc | bnn | bnov | bnz | bov | bz => exact .of_keeps rfl (branchIf_keeps _ h)
  | bra | goto =>
    cases h
    exact .of_keeps rfl (keeps_setPc _ s _)
  | nop | nopF =>
    cases h
    exact .of_keeps rfl (keeps_advance _ s _)
  | call k fast =>
    obtain ⟨hroom, rfl⟩ := (exec_call_eq_next k fast s t).mp h
    cases fast with
    | false => exact .of_keeps rfl ((keeps_push rfl hroom _).trans (keeps_setPc _ _ _))
    | true =>
      exact .of_keeps rfl (((keeps_push rfl hroom _).trans (keeps_saveFast rfl _)).trans (keeps_setPc _ _ _))
  | rcall n =>
    obtain ⟨hroom, rfl⟩ := (exec_rcall_eq_next n s t).mp h
    exact .of_keeps rfl ((keeps_push rfl hroom _).trans (keeps_setPc _ _ _))
  | callw =>
    obtain ⟨hroom, rfl⟩ := (exec_callw_eq_next s t).mp h
    exact .of_keeps rfl ((keeps_push rfl hroom _).trans (keeps_setPc _ _ _))
  | push =>
    obtain ⟨hroom, rfl⟩ := (exec_push_eq_next s t).mp h
    exact .of_keeps rfl ((keeps_push rfl hroom _).trans (keeps_advance _ _ _))
  | pop =>
    obtain ⟨v, rest, hs, rfl⟩ := (exec_pop_eq_next s t).mp h
    exact .of_keeps rfl ((keeps_pop rfl hs).trans (keeps_advance _ _ _))
  | ret fast =>
    obtain ⟨v, rest, hs, rfl⟩ := (exec_ret_eq_next fast s t).mp h
    exact .of_keeps rfl (((keeps_pop rfl hs).trans (keeps_setPc _ _ v)).trans
      (keeps_restoreFast (by rintro rfl; rfl) (by rintro rfl; rfl) _))
  | retfie fast =>
    obtain ⟨v, rest, hs, rfl⟩ := (State.interruptReturn_eq_ok s t fast).mp ((outcome_eq_next _ t).mp h)
    have henable (u : State) : Keeps (.retfie fast) u u.retfieEnable := by
      unfold State.retfieEnable
      split <;> exact keeps_intcon rfl u _
    exact .of_keeps rfl ((((keeps_pop rfl hs).trans (keeps_setPc _ _ v)).trans (henable _)).trans
      (keeps_restoreFast (by rintro rfl; rfl) (by rintro rfl; rfl) _))
  | retlw k =>
    exact .of_keeps rfl ((keeps_wreg _ s k).trans (popPc_keeps rfl ((outcome_eq_next _ t).mp h)))
  | addulnk k | subulnk k =>
    exact .of_keeps rfl ((keeps_setFsr _ s .fsr2 _).trans (popPc_keeps rfl ((outcome_eq_next _ t).mp h)))
  -- system instructions
  | daw =>
    cases h
    exact .of_keeps rfl (((keeps_wreg _ s (decimalAdjust s.cfg.dawCarrySticky s.w s.flags.dc s.flags.c).1).trans
      (keeps_flags _ (.of_c rfl s.flags _))).trans (keeps_advance _ _ _))
  | clrwdt =>
    cases h
    exact .of_keeps rfl (((keeps_wdt rfl s 0 0).trans (keeps_rcon rfl _ _)).trans (keeps_advance _ _ _))
  | sleep =>
    cases h
    exact .of_keeps rfl ((((keeps_wdt rfl s 0 0).trans (keeps_asleep rfl _ true)).trans (keeps_rcon rfl _ _)).trans
      (keeps_advance _ _ _))
  | reset =>
    cases h
    exact .of_keeps rfl (keeps_resetTo s _)

/-- Outside the footprint of an instruction and the place it stores to, nothing changes. -/
theorem exec_same {i : Instr} {s t : State} (h : exec i s = .next t) {part : Part}
    (hfoot : footprint i part = false) (hstore : ∀ p, storePlace i s = some p → ¬ part.stores p) :
    part.same s t := by
  obtain ⟨u, v, hu, ht⟩ := exec_does i s t h
  have hmid : part.same u (u.storeAt v (storePlace i s)) := by
    cases hp : storePlace i s with
    | none => exact part.same_refl u
    | some p => exact Part.same_afterWrite u v p (hstore p hp)
  exact Part.same_trans (Part.same_trans (hu.same part hfoot) hmid) (ht.same part hfoot)

/-- A part that changes is in the footprint, or the instruction stores into it. -/
theorem footprint_or_store {i : Instr} {s t : State} (h : exec i s = .next t) {part : Part}
    (hne : ¬ part.same s t) : footprint i part = true ∨ ∃ p, storePlace i s = some p ∧ part.stores p := by
  by_contra hno
  push Not at hno
  obtain ⟨hfoot, hstore⟩ := hno
  exact hne (exec_same h (by simpa using hfoot) hstore)

end Sys2Proof.Machine
end

section
/-! PROOFS. Who writes what, over all instructions: each statement reads one part of the state off the footprint. -/

namespace Sys2Proof.Machine

/-- R24: the flags an instruction does not affect stay, where it does not store to STATUS. -/
theorem exec_flagsKept {i : Instr} {s t : State} (h : exec i s = .next t)
    (hstatus : storePlace i s ≠ some (.sfr .status)) : FlagsKept i s.flags t.flags := by
  have hno (p : Place) (hp : storePlace i s = some p) : p ≠ .sfr .status := fun he => hstatus (he ▸ hp)
  exact ⟨fun hf => exec_same h (part := .flagN) hf hno, fun hf => exec_same h (part := .flagOv) hf hno,
    fun hf => exec_same h (part := .flagZ) hf hno, fun hf => exec_same h (part := .flagDc) hf hno,
    fun hf => exec_same h (part := .flagC) hf hno⟩

/-- Settles O51: each flag is a part, and a store into it is one to STATUS. -/
theorem flagFrame : Obligations.FlagFrame :=
  fun _ _ _ => exec_flagsKept

/-- Settles O50: RAM and the outputs are in no footprint, and the one store adds its event. -/
theorem memoryFrame : Obligations.MemoryFrame := by
  intro i s t h
  refine ⟨fun addr hne => ?ram, fun hne => ?quiet, fun addr hstore => ?event⟩
  case ram => exact exec_same h (part := .ramByte addr) rfl fun p hp he => hne (he ▸ hp)
  case quiet => exact exec_same h (part := .outputs) rfl fun p hp ⟨addr, he⟩ => hne addr (he ▸ hp)
  case event =>
    obtain ⟨u, v, hu, ht⟩ := exec_does i s t h
    rw [hstore] at ht
    have hbefore : u.outputs = s.outputs := hu.same .outputs rfl
    have hafter : t.outputs = (addr.toNat, v) :: u.outputs := ht.same .outputs rfl
    exact ⟨v, by rw [hafter, hbefore]⟩

/-- RESET keeps PRODH and PRODL where its column of `ResetValues` says so (R48). -/
theorem exec_reset_prod {s t : State} (h : exec .reset s = .next t)
    (hcol : s.cfg.resetValues.mclr.prod = .unchanged) : t.prodh = s.prodh ∧ t.prodl = s.prodl := by
  cases h
  simp [State.mclrReset, hcol, ResetTo.load]

theorem writesBsr_cases {i : Instr} (h : writesBsr i = true) :
    (∃ k, i = .movlb k) ∨ i = .ret true ∨ i = .retfie true ∨ i = .reset := by
  unfold writesBsr at h
  split at h <;> simp at h ⊢

theorem writesProd_cases {i : Instr} (h : writesProd i = true) :
    (∃ f a, i = .mulwf f a) ∨ (∃ k, i = .mullw k) ∨ i = .reset := by
  unfold writesProd at h
  split at h <;> simp at h ⊢

/-- Settles O52: the footprints of BSR and of PRODH, PRODL; RESET by its column. -/
theorem bankAndProductWriters : Obligations.BankAndProductWriters := by
  intro i s t h
  refine ⟨fun hne => ?bsr, fun hne => ?prodh, fun hne => ?prodl⟩
  case bsr =>
    obtain hfoot | ⟨p, hp, rfl⟩ := footprint_or_store h (part := .bsr) hne
    · have := writesBsr_cases hfoot
      tauto
    · tauto
  case prodh =>
    obtain hfoot | ⟨p, hp, rfl⟩ := footprint_or_store h (part := .prodh) hne
    · obtain hw | hw | rfl := writesProd_cases hfoot
      · exact .inl hw
      · exact .inr (.inl hw)
      · exact .inr (.inr (.inr ⟨rfl, fun hcol => hne (exec_reset_prod h hcol).1⟩))
    · exact .inr (.inr (.inl hp))
  case prodl =>
    obtain hfoot | ⟨p, hp, rfl⟩ := footprint_or_store h (part := .prodl) hne
    · obtain hw | hw | rfl := writesProd_cases hfoot
      · exact .inl hw
      · exact .inr (.inl hw)
      · exact .inr (.inr (.inr ⟨rfl, fun hcol => hne (exec_reset_prod h hcol).2⟩))
    · exact .inr (.inr (.inl hp))

theorem writesStack_cases {i : Instr} (h : writesStack i = true) :
    (∃ k b, i = .call k b) ∨ (∃ n, i = .rcall n) ∨ i = .callw ∨ i = .push ∨ (∃ b, i = .ret b)
      ∨ (∃ b, i = .retfie b) ∨ (∃ k, i = .retlw k) ∨ i = .pop ∨ (∃ k, i = .addulnk k) ∨ (∃ k, i = .subulnk k)
      ∨ i = .reset := by
  cases i with
  | call k b => exact .inl ⟨k, b, rfl⟩
  | rcall n => exact .inr (.inl ⟨n, rfl⟩)
  | ret b | retfie b | retlw k | addulnk k | subulnk k => simp
  | callw | push | pop | reset => simp
  | _ => cases h

theorem writesShadow_cases {i : Instr} (h : writesShadow i = true) : (∃ k, i = .call k true) ∨ i = .reset := by
  cases i with
  | call k b =>
    cases b with
    | false => cases h
    | true => exact .inl ⟨k, rfl⟩
  | reset => exact .inr rfl
  | _ => cases h

/-- Settles O53: the footprints of the stack and of the shadow registers, which no store goes to. -/
theorem stackAndShadowWriters : Obligations.StackAndShadowWriters := by
  intro i s t h
  refine ⟨fun hne => ?stack, fun hne => ?shadow⟩
  case stack =>
    obtain hfoot | ⟨p, hp, rfl | rfl | rfl⟩ := footprint_or_store h (part := .stack) hne
    · simpa only [or_assoc] using Or.inl (writesStack_cases hfoot)
    all_goals simp [hp]
  case shadow =>
    obtain hfoot | ⟨p, hp, hno⟩ := footprint_or_store h (part := .shadow) (by simp only [Part.same]; tauto)
    · exact writesShadow_cases hfoot
    · exact hno.elim

theorem writesTablat_cases {i : Instr} (h : writesTablat i = true) :
    i = .tblrd ∨ i = .tblrdPostInc ∨ i = .tblrdPostDec ∨ i = .tblrdPreInc ∨ i = .reset := by
  unfold writesTablat at h
  split at h <;> simp at h ⊢

theorem writesTblptr_cases {i : Instr} (h : writesTblptr i = true) :
    i = .tblrdPostInc ∨ i = .tblrdPostDec ∨ i = .tblrdPreInc ∨ i = .tblwtPostInc ∨ i = .tblwtPostDec
      ∨ i = .tblwtPreInc ∨ i = .reset := by
  unfold writesTblptr at h
  split at h <;> simp at h ⊢

theorem writesHolding_cases {i : Instr} (h : writesHolding i = true) :
    i = .tblwt ∨ i = .tblwtPostInc ∨ i = .tblwtPostDec ∨ i = .tblwtPreInc ∨ i = .reset := by
  unfold writesHolding at h
  split at h <;> simp at h ⊢

/-- Settles O54: the footprints of TABLAT, of TBLPTR and of the holding registers, which no store goes to. -/
theorem tableRegisterWriters : Obligations.TableRegisterWriters := by
  intro i s t h
  refine ⟨fun hne => ?tablat, fun hne => ?tblptr, fun hne => ?holding⟩
  case tablat =>
    obtain hfoot | ⟨p, hp, rfl⟩ := footprint_or_store h (part := .tablat) hne
    · have := writesTablat_cases hfoot
      tauto
    · tauto
  case tblptr =>
    obtain hfoot | ⟨p, hp, rfl | rfl | rfl⟩ := footprint_or_store h (part := .tblptr) hne
    · have := writesTblptr_cases hfoot
      tauto
    all_goals tauto
  case holding =>
    obtain hfoot | ⟨p, hp, hno⟩ := footprint_or_store h (part := .holding) hne
    · exact writesHolding_cases hfoot
    · exact hno.elim

theorem writesIntcon_cases {i : Instr} (h : writesIntcon i = true) : (∃ b, i = .retfie b) ∨ i = .reset := by
  unfold writesIntcon at h
  split at h <;> simp at h ⊢

theorem writesWatchdog_cases {i : Instr} (h : writesWatchdog i = true) : i = .clrwdt ∨ i = .sleep ∨ i = .reset := by
  unfold writesWatchdog at h
  split at h <;> simp at h ⊢

theorem writesAsleep_cases {i : Instr} (h : writesAsleep i = true) : i = .sleep ∨ i = .reset := by
  unfold writesAsleep at h
  split at h <;> simp at h ⊢

/-- An instruction that puts the processor to sleep or wakes it is SLEEP, which leaves it asleep, or RESET, which
leaves it awake (R187, R191). -/
theorem asleep_change {i : Instr} {s t : State} (h : exec i s = .next t) (hne : t.asleep ≠ s.asleep) :
    (i = .sleep ∧ t.asleep = true) ∨ (i = .reset ∧ t.asleep = false) := by
  obtain hfoot | ⟨p, hp, hno⟩ := footprint_or_store h (part := .asleep) hne
  · obtain rfl | rfl := writesAsleep_cases hfoot
    · cases h
      exact .inl ⟨rfl, rfl⟩
    · cases h
      exact .inr ⟨rfl, rfl⟩
  · exact hno.elim

/-- Settles O55: the footprints of INTCON, RCON and the Watchdog counters, what SLEEP and RESET leave, and the parts
that are in no footprint. -/
theorem controlRegisterWriters : Obligations.ControlRegisterWriters := by
  intro i s t h
  refine ⟨fun hne => ?intcon, fun hne => ?rcon, fun hne => ?wdt, fun hs ht => ?sleeps, fun hs ht => ?wakes, ?kept⟩
  case intcon =>
    obtain hfoot | ⟨p, hp, rfl⟩ := footprint_or_store h (part := .intcon) hne
    · have := writesIntcon_cases hfoot
      tauto
    · tauto
  case rcon =>
    obtain hfoot | ⟨p, hp, rfl⟩ := footprint_or_store h (part := .rcon) hne
    · have := writesWatchdog_cases hfoot
      tauto
    · tauto
  case wdt =>
    obtain hfoot | ⟨p, hp, hno⟩ := footprint_or_store h (part := .wdt) (by simp only [Part.same]; tauto)
    · exact writesWatchdog_cases hfoot
    · exact hno.elim
  case sleeps =>
    obtain ⟨hi, -⟩ | ⟨-, hawake⟩ := asleep_change h (by simp [hs, ht])
    · exact hi
    · simp [ht] at hawake
  case wakes =>
    obtain ⟨-, hasleep⟩ | ⟨hi, -⟩ := asleep_change h (by simp [hs, ht])
    · simp [ht] at hasleep
    · exact hi
  case kept =>
    obtain ⟨hful, hunf⟩ := exec_same h (part := .stackFlags) rfl fun _ _ => id
    exact ⟨exec_same h (part := .env) rfl fun _ _ => id, exec_same h (part := .ramEpoch) rfl fun _ _ => id, hful,
      hunf⟩

end Sys2Proof.Machine
end

section
/-! PROOFS. What every step keeps: the parameters, program memory, and the invariant of R27, R31, R42, R60, R74. -/

namespace Sys2Proof.Machine

/-! ### Where an instruction stores -/

/-- The place an instruction stores to is the place of some data address. -/
theorem storePlace_eq_placeAt {i : Instr} {s : State} {p : Place} (h : storePlace i s = some p) :
    ∃ addr, p = placeAt s.cfg addr := by
  unfold storePlace at h
  split at h
  · cases h
    simpa [State.moveDest] using
      State.resolve_place (((s.resolve _).2.afterRead (s.resolve _).1).advance 4#21) _
  · cases h
    simpa [State.moveDest] using State.resolve_place ((s.afterRead _).advance 4#21) _
  · split at h
    · cases h
    · cases h
      exact ⟨_, rfl⟩
  · cases h
    exact State.resolve_place (s.advance 2#21) _
  · split at h
    · split at h
      · cases h
        exact s.operand_place _ _
      · cases h
    · cases h

/-! ### Instructions -/

theorem exec_keeps_cfg_prog {i : Instr} {s t : State} (h : exec i s = .next t) : t.prog = s.prog ∧ t.cfg = s.cfg :=
  ⟨exec_same h (part := .prog) rfl fun _ _ => id, exec_same h (part := .cfg) rfl fun _ _ => id⟩

theorem exec_keeps_inv {i : Instr} {s t : State} (h : exec i s = .next t) (hs : s.Inv) : t.Inv := by
  obtain ⟨u, v, hu, ht⟩ := exec_does i s t h
  apply ht.inv
  cases hp : storePlace i s with
  | none => exact hu.inv hs
  | some p =>
    obtain ⟨addr, rfl⟩ := storePlace_eq_placeAt hp
    have hcfg : u.cfg = s.cfg := hu.same .cfg rfl
    exact hcfg ▸ (hu.inv hs).afterWrite v addr

/-! ### Events -/

theorem State.Inv.with_env {s : State} (h : s.Inv) (e : Env) : { s with env := e }.Inv :=
  h.carry rfl rfl rfl rfl rfl id id

theorem State.Inv.resetTo {s : State} (h : s.Inv) (c : ResetColumn) : (s.resetTo c).Inv :=
  (keeps_resetTo s c).inv h

theorem State.Inv.resetBy {s : State} (h : s.Inv) (kind : ResetKind) : (s.resetBy kind).Inv := by
  have hmclr : s.mclrReset.Inv := h.resetTo _
  cases kind with
  | mclr =>
    unfold State.resetBy
    dsimp only
    split
    · exact hmclr.carry rfl rfl rfl rfl rfl id id
    · exact hmclr
  | powerOn =>
    obtain ⟨hwf, hpc, hdepth, -, -, hprogWf, hprogIn, houtIn, hhold⟩ := h.resetTo s.cfg.resetValues.powerOn
    exact ⟨hwf, hpc, hdepth, ⟨.nil, nofun⟩, nofun, hprogWf, hprogIn, houtIn, hhold⟩

theorem State.Inv.wdtTimeout {s : State} (h : s.Inv) : s.wdtTimeout.Inv := by
  unfold State.wdtTimeout
  split
  · exact h.carry rfl rfl rfl rfl rfl id id
  · exact (h.resetTo s.cfg.resetValues.mclr).carry rfl rfl rfl rfl rfl id id

theorem State.Inv.interruptEntry {s t : State} {level : IrqLevel} (h : s.Inv)
    (ht : s.interruptEntry level = .ok t) : t.Inv := by
  obtain ⟨hroom, rfl⟩ := (s.interruptEntry_eq_ok t level).mp ht
  exact h.carry rfl rfl rfl rfl rfl (fun _ => s.setPc_even _) fun _ => hroom

/-- Acting upon an event keeps the invariant. -/
theorem State.Inv.takeBoundary {s t : State} {b : Boundary} (h : s.Inv) (ht : s.takeBoundary b = .ok t) : t.Inv := by
  obtain ⟨kind, -, rfl⟩ | ⟨-, -, rfl⟩ | ⟨-, -, rfl⟩ | ⟨-, hirq⟩ | ⟨-, hirq⟩ | ⟨-, rfl⟩ :=
    s.takeBoundary_eq_ok t b ht
  · exact (h.resetBy kind).with_env _
  · exact h.wdtTimeout.with_env _
  · exact h.wdtTimeout.with_env _
  · exact (h.with_env _).interruptEntry hirq
  · exact (h.with_env _).interruptEntry hirq
  · exact h.carry rfl rfl rfl rfl rfl id id

theorem State.resetBy_cfg_prog (s : State) (kind : ResetKind) :
    (s.resetBy kind).prog = s.prog ∧ (s.resetBy kind).cfg = s.cfg := by
  cases kind with
  | powerOn => exact ⟨rfl, rfl⟩
  | mclr =>
    unfold State.resetBy
    dsimp only
    split <;> exact ⟨rfl, rfl⟩

theorem State.wdtTimeout_cfg_prog (s : State) : s.wdtTimeout.prog = s.prog ∧ s.wdtTimeout.cfg = s.cfg := by
  unfold State.wdtTimeout
  split <;> exact ⟨rfl, rfl⟩

theorem State.interruptEntry_cfg_prog {s t : State} {level : IrqLevel} (h : s.interruptEntry level = .ok t) :
    t.prog = s.prog ∧ t.cfg = s.cfg := by
  obtain ⟨-, rfl⟩ := (s.interruptEntry_eq_ok t level).mp h
  exact ⟨rfl, rfl⟩

/-- Acting upon an event keeps program memory and the parameters. -/
theorem State.takeBoundary_cfg_prog {s t : State} {b : Boundary} (h : s.takeBoundary b = .ok t) :
    t.prog = s.prog ∧ t.cfg = s.cfg := by
  obtain ⟨kind, -, rfl⟩ | ⟨-, -, rfl⟩ | ⟨-, -, rfl⟩ | ⟨-, hirq⟩ | ⟨-, hirq⟩ | ⟨-, rfl⟩ :=
    s.takeBoundary_eq_ok t b h
  · exact s.resetBy_cfg_prog kind
  · exact s.wdtTimeout_cfg_prog
  · exact s.wdtTimeout_cfg_prog
  · have := State.interruptEntry_cfg_prog hirq
    exact this
  · have := State.interruptEntry_cfg_prog hirq
    exact this
  · exact ⟨rfl, rfl⟩

/-! ### Steps -/

/-- Settles O10: a step is an event, continued Sleep or an instruction, and each keeps the invariant. -/
theorem stepKeepsInvariant : Obligations.StepKeepsInvariant := by
  intro s t hs h
  obtain ⟨b, -, hb⟩ | ⟨-, -, rfl⟩ | ⟨-, i, -, hi⟩ := step_eq_next s t h
  · exact hs.takeBoundary hb
  · exact hs
  · exact exec_keeps_inv hi hs

/-- Settles O12: the same three kinds of step. -/
theorem stepKeepsProgramAndParameters : Obligations.StepKeepsProgramAndParameters := by
  intro s t h
  obtain ⟨b, -, hb⟩ | ⟨-, -, rfl⟩ | ⟨-, i, -, hi⟩ := step_eq_next s t h
  · exact State.takeBoundary_cfg_prog hb
  · exact ⟨rfl, rfl⟩
  · exact exec_keeps_cfg_prog hi

/-- Settles O11: the fields of the state after reset, one by one. -/
theorem resetMeetsInvariant : Obligations.ResetMeetsInvariant := by
  refine ⟨by decide, rfl, Nat.zero_le _, reset_ram_wf, nofun, reset_prog_wf, nofun, nofun, rfl⟩

/-- Settles O13: each value evaluated. -/
theorem resetValuesOfTable : Obligations.ResetValuesOfTable :=
  ⟨rfl, rfl, rfl, rfl, rfl, rfl, rfl, rfl, rfl, rfl, rfl, rfl, rfl, rfl, rfl, rfl, rfl, rfl, rfl, rfl, rfl, rfl, rfl⟩

end Sys2Proof.Machine
end

section
/-! PROOFS. The byte-oriented instructions that do not skip (R119 to R142): the words of the BYTE formats, and what
each shape leaves where its operand can be accessed. -/

namespace Sys2Proof

/-! ### The words of the BYTE and BYTE_A formats -/

theorem bitOfDest_toNat (d : Dest) : (bitOfDest d).toNat = if d = .file then 1 else 0 := by
  cases d <;> rfl

/-- R91: the opcode in bits 15:10, d in 9, a in 8 and f in 7:0. -/
theorem wordOf_hiByteD (op : BitVec 6) (d : Dest) (a : Access) (f : Byte) :
    wordOf (hiByteD op d a) f = BitVec.ofNat 16 (op.toNat * 2 ^ 10 + (if d = .file then 2 ^ 9 else 0)
      + (if a = .banked then 2 ^ 8 else 0) + f.toNat) := by
  have hfields : (hiByteD op d a).toNat * 2 ^ 8 + f.toNat = op.toNat * 2 ^ 10 + (if d = .file then 2 ^ 9 else 0)
      + (if a = .banked then 2 ^ 8 else 0) + f.toNat := by
    rw [hiByteD, append_toNat, append_toNat, bitOfDest_toNat, bitOfAccess_toNat]
    split <;> split <;> omega
  rw [wordOf_eq_ofNat, hfields]

/-- R91: the opcode in bits 15:9, a in 8 and f in 7:0. -/
theorem wordOf_hiByteA (op : BitVec 7) (a : Access) (f : Byte) :
    wordOf (hiByteA op a) f = BitVec.ofNat 16 (op.toNat * 2 ^ 9 + (if a = .banked then 2 ^ 8 else 0) + f.toNat) := by
  have hfields : (hiByteA op a).toNat * 2 ^ 8 + f.toNat
      = op.toNat * 2 ^ 9 + (if a = .banked then 2 ^ 8 else 0) + f.toNat := by
    rw [hiByteA, append_toNat, bitOfAccess_toNat]
    split <;> omega
  rw [wordOf_eq_ofNat, hfields]

namespace Machine

/-! ### Arithmetic -/

/-- An arithmetic instruction with a d bit: its result and all five of its flags. -/
theorem fileOp_allFlags (r : State → Byte → Byte × Flags) (f : Byte) (d : Dest) (a : Access) (s : State)
    (h : s.operandOk f d a) :
    fileOp (fun t x => allFlags (r t x)) f d a s
      = .next (s.fileResult f d a (r (s.afterOperandRead f a) (s.operandValue f a)).1
          (fun _ => (r (s.afterOperandRead f a) (s.operandValue f a)).2)) :=
  fileOp_of_ok _ f d a s h

/-- Settles O25: each is `fileOp` with the result and flags of Add8 or Sub8; reading the operand keeps W and C. -/
theorem arithmeticFileResults : Obligations.ArithmeticFileResults := by
  intro s f d a h x res word
  have hall (r : State → Byte → Byte × Flags) :
      fileOp (fun t x => allFlags (r t x)) f d a s = res (r (s.afterOperandRead f a) x) := fileOp_allFlags r f d a s h
  have hword (op : BitVec 6) : [wordOf (hiByteD op d a) f] = word op.toNat :=
    congrArg (fun w => [w]) (wordOf_hiByteD op d a f)
  have hw : (s.afterOperandRead f a).w = s.w := s.afterOperandRead_w f a
  have hfl : (s.afterOperandRead f a).flags = s.flags := s.afterOperandRead_flags f a
  rw [exec_addwf, exec_addwfc, exec_decf, exec_incf, exec_subfwb, exec_subwf, exec_subwfb]
  refine ⟨?addwf, ?addwfc, hall fun _ x => sub8 x 1#8 false, hall fun _ x => add8 x 1#8 false, ?subfwb, ?subwf,
    ?subwfb, hword 0b001001#6, hword 0b001000#6, hword 0b000001#6, hword 0b001010#6, hword 0b010101#6,
    hword 0b010111#6, hword 0b010110#6⟩
  case addwf => rw [hall fun t x => add8 t.w x false, hw]
  case addwfc => rw [hall fun t x => add8 t.w x t.flags.c, hw, hfl]
  case subfwb => rw [hall fun t x => sub8 t.w x (!t.flags.c), hw, hfl]
  case subwf => rw [hall fun t x => sub8 x t.w false, hw]
  case subwfb => rw [hall fun t x => sub8 x t.w (!t.flags.c), hw, hfl]

/-! ### Logic -/

/-- SetZN as a change of the flags. -/
theorem setZN_eq (r : Byte) : setZN r = fun fl => { fl with z := decide (r = 0#8), n := r.getLsbD 7 } :=
  funext fun fl => setZNWritesOnlyZAndN r fl

/-- SetZN and a new C, as a change of the flags. -/
theorem setCZN_eq (c : Bool) (r : Byte) :
    setCZN c r = fun fl => { fl with z := decide (r = 0#8), n := r.getLsbD 7, c := c } := by
  funext fl
  rw [setCZN, setZNWritesOnlyZAndN]

/-- A logic instruction with a d bit: its result, and Z and N of it. -/
theorem fileOp_znFlags (r : State → Byte → Byte) (f : Byte) (d : Dest) (a : Access) (s : State)
    (h : s.operandOk f d a) :
    let v := r (s.afterOperandRead f a) (s.operandValue f a)
    fileOp (fun t x => znFlags (r t x)) f d a s
      = .next (s.fileResult f d a v (fun fl => { fl with z := decide (v = 0#8), n := v.getLsbD 7 })) := by
  rw [fileOp_of_ok _ f d a s h, znFlags, setZN_eq]

/-- Settles O26: each is `fileOp` with SetZN of its result. -/
theorem logicFileResults : Obligations.LogicFileResults := by
  intro s f d a h x res word
  have hzn (r : State → Byte → Byte) :
      fileOp (fun t x => znFlags (r t x)) f d a s = res (r (s.afterOperandRead f a) x) := fileOp_znFlags r f d a s h
  have hword (op : BitVec 6) : [wordOf (hiByteD op d a) f] = word op.toNat :=
    congrArg (fun w => [w]) (wordOf_hiByteD op d a f)
  have hw : (s.afterOperandRead f a).w = s.w := s.afterOperandRead_w f a
  rw [exec_andwf, exec_comf, exec_iorwf, exec_movf, exec_xorwf]
  refine ⟨?andwf, hzn fun _ x => ~~~x, ?iorwf, hzn fun _ x => x, ?xorwf, hword 0b000101#6, hword 0b000111#6,
    hword 0b000100#6, hword 0b010100#6, hword 0b000110#6⟩
  case andwf => rw [hzn fun t x => t.w &&& x, hw]
  case iorwf => rw [hzn fun t x => t.w ||| x, hw]
  case xorwf => rw [hzn fun t x => t.w ^^^ x, hw]

/-! ### Rotates -/

/-- A byte moved left by one, with `b` entering at bit 0. -/
theorem rotateLeft_getLsbD (x : Byte) (b : BitVec 1) :
    (x.extractLsb' 0 7 ++ b : Byte).getLsbD 0 = b.getLsbD 0
      ∧ ∀ n < 7, (x.extractLsb' 0 7 ++ b : Byte).getLsbD (n + 1) = x.getLsbD n := by
  refine ⟨by rw [BitVec.getLsbD_append, if_pos (by decide)], fun n hn => ?_⟩
  rw [BitVec.getLsbD_append, if_neg (by omega), BitVec.getLsbD_extractLsb']
  simp [hn]

/-- A byte moved right by one, with `b` entering at bit 7. -/
theorem rotateRight_getLsbD (x : Byte) (b : BitVec 1) :
    (b ++ x.extractLsb' 1 7 : Byte).getLsbD 7 = b.getLsbD 0
      ∧ ∀ n < 7, (b ++ x.extractLsb' 1 7 : Byte).getLsbD n = x.getLsbD (n + 1) := by
  refine ⟨by rw [BitVec.getLsbD_append, if_neg (by decide)], fun n hn => ?_⟩
  rw [BitVec.getLsbD_append, if_pos hn, BitVec.getLsbD_extractLsb']
  simp [hn, Nat.add_comm]

/-- The nibbles of a byte exchanged. -/
theorem swapNibbles_getLsbD (x : Byte) (n : Nat) (hn : n < 4) :
    (x.extractLsb' 0 4 ++ x.extractLsb' 4 4 : Byte).getLsbD n = x.getLsbD (n + 4)
      ∧ (x.extractLsb' 0 4 ++ x.extractLsb' 4 4 : Byte).getLsbD (n + 4) = x.getLsbD n := by
  constructor
  · rw [BitVec.getLsbD_append, if_pos hn, BitVec.getLsbD_extractLsb']
    simp [hn, Nat.add_comm]
  · rw [BitVec.getLsbD_append, if_neg (by omega), BitVec.getLsbD_extractLsb']
    simp [hn]

theorem ofBool_getLsbD_zero (b : Bool) : (BitVec.ofBool b).getLsbD 0 = b := by
  cases b <;> rfl

/-- Bit `k` of a byte, as a rotate moves it. -/
theorem extractLsb'_one_getLsbD (x : Byte) (k : Nat) : (x.extractLsb' k 1).getLsbD 0 = x.getLsbD k := by
  simp

/-- A rotate through carry with a d bit: its result, Z and N of it, and the bit that leaves as C. -/
theorem fileOp_cznFlags (c : State → Byte → Bool) (r : State → Byte → Byte) (f : Byte) (d : Dest) (a : Access)
    (s : State) (h : s.operandOk f d a) :
    let v := r (s.afterOperandRead f a) (s.operandValue f a)
    fileOp (fun t x => cznFlags (c t x) (r t x)) f d a s
      = .next (s.fileResult f d a v (fun fl => { fl with
          z := decide (v = 0#8), n := v.getLsbD 7, c := c (s.afterOperandRead f a) (s.operandValue f a) })) := by
  rw [fileOp_of_ok _ f d a s h, cznFlags, setCZN_eq]

/-- Settles O27: each is `fileOp`, its result the operand moved by one bit (or with its nibbles exchanged). -/
theorem rotateFileResults : Obligations.RotateFileResults := by
  intro s f d a h x word zn
  have hword (op : BitVec 6) : [wordOf (hiByteD op d a) f] = word op.toNat :=
    congrArg (fun w => [w]) (wordOf_hiByteD op d a f)
  have hc : (s.afterOperandRead f a).flags.c = s.flags.c := congrArg Flags.c (s.afterOperandRead_flags f a)
  rw [exec_rlcf, exec_rlncf, exec_rrcf, exec_rrncf, exec_swapf]
  refine ⟨⟨_, fileOp_cznFlags (fun _ x => x.getLsbD 7) (fun t x => x.extractLsb' 0 7 ++ BitVec.ofBool t.flags.c)
      f d a s h, ?rlcf⟩,
    ⟨_, fileOp_znFlags (fun _ x => x.extractLsb' 0 7 ++ x.extractLsb' 7 1) f d a s h, ?rlncf⟩,
    ⟨_, fileOp_cznFlags (fun _ x => x.getLsbD 0) (fun t x => BitVec.ofBool t.flags.c ++ x.extractLsb' 1 7)
      f d a s h, ?rrcf⟩,
    ⟨_, fileOp_znFlags (fun _ x => x.extractLsb' 0 1 ++ x.extractLsb' 1 7) f d a s h, ?rrncf⟩,
    ⟨_, fileOp_of_ok _ f d a s h, swapNibbles_getLsbD x⟩,
    hword 0b001101#6, hword 0b010001#6, hword 0b001100#6, hword 0b010000#6, hword 0b001110#6⟩
  case rlcf => simpa only [hc, ofBool_getLsbD_zero] using rotateLeft_getLsbD x (.ofBool s.flags.c)
  case rlncf => simpa only [extractLsb'_one_getLsbD] using rotateLeft_getLsbD x (x.extractLsb' 7 1)
  case rrcf => simpa only [hc, ofBool_getLsbD_zero] using rotateRight_getLsbD x (.ofBool s.flags.c)
  case rrncf => simpa only [extractLsb'_one_getLsbD] using rotateRight_getLsbD x (x.extractLsb' 0 1)

/-! ### Stores -/

/-- Settles O28: each is `fileStore`; addressing keeps W. -/
theorem storeResults : Obligations.StoreResults := by
  intro s f a h put
  have hw : (s.operand f a).2.w = s.w := by
    obtain ⟨n, v, hs⟩ := s.operand_state f a
    rw [hs, State.setFsr_w]
  rw [exec_clrf, exec_movwf, exec_setf]
  refine ⟨fileStore_of_ok _ _ f a s h, ?movwf, fileStore_of_ok _ _ f a s h⟩
  case movwf => rw [fileStore_of_ok _ _ f a s h, hw]

/-! ### MULWF and NEGF -/

/-- The two bytes of the unsigned product (R37). -/
theorem product_bytes (x y : Byte) :
    ((x.setWidth 16 * y.setWidth 16).extractLsb' 8 8).toNat * 256
      + ((x.setWidth 16 * y.setWidth 16).extractLsb' 0 8).toNat = x.toNat * y.toNat := by
  have hlt : x.toNat * y.toNat < 2 ^ 8 * 2 ^ 8 := Nat.mul_lt_mul'' x.isLt y.isLt
  have hprod : (x.setWidth 16 * y.setWidth 16).toNat = x.toNat * y.toNat := by
    rw [BitVec.toNat_mul, BitVec.toNat_setWidth_of_le (by decide), BitVec.toNat_setWidth_of_le (by decide),
      Nat.mod_eq_of_lt (by omega)]
  rw [BitVec.extractLsb'_toNat, BitVec.extractLsb'_toNat, hprod, Nat.shiftRight_eq_div_pow, Nat.shiftRight_zero]
  omega

/-- R39: Sub8(00h, x, 0) is Add8(not x, 01h, 0), flags and all. -/
theorem add8_compl_one (x : Byte) : add8 (~~~x) 0x01#8 false = sub8 0x00#8 x false := by
  revert x
  decide

/-- Settles O29: the product byte by byte, and NEGF as Sub8(00h, f, 0). -/
theorem multiplyAndNegate : Obligations.MultiplyAndNegate := by
  intro s f a h x word
  have hword (op : BitVec 7) : [wordOf (hiByteA op a) f] = word op.toNat :=
    congrArg (fun w => [w]) (wordOf_hiByteA op a f)
  refine ⟨⟨_, _, product_bytes s.w x, ?mulwf⟩, fun hfile => ?negf, add8_compl_one x, hword 0b0000001#7,
    hword 0b0110110#7⟩
  case mulwf => exact (exec_mulwf_eq_next f a s _).mpr ⟨h.1, rfl⟩
  case negf =>
    rw [exec_negf]
    exact fileOp_allFlags (fun _ x => add8 (~~~x) 1#8 false) f .file a s hfile

/-! ### MOVFF -/

/-- MOVFF onto a destination that is not forbidden, its source read as `v`. -/
theorem exec_movff_of_read {fs fd : DataAddr} {s t : State} {v : Byte} (h : forbiddenDestination s.cfg fd = false)
    (hread : (s.resolve fs).2.readPlace (s.resolve fs).1 = .ok (v, t)) :
    exec (.movff fs fd) s =
      outcome (((t.advance 4#21).resolve fd).2.writePlace ((t.advance 4#21).resolve fd).1 v) := by
  change execMovff fs fd s = _
  simp only [execMovff, h, Bool.false_eq_true, if_false, hread]

/-- MOVFF onto a destination that is not forbidden, its source not readable. -/
theorem exec_movff_of_read_error {fs fd : DataAddr} {s : State} {e : Fault}
    (h : forbiddenDestination s.cfg fd = false)
    (hread : (s.resolve fs).2.readPlace (s.resolve fs).1 = .error e) : exec (.movff fs fd) s = .fault e := by
  change execMovff fs fd s = _
  simp only [execMovff, h, Bool.false_eq_true, if_false, hread]

/-- Settles O30: the source is read, then the destination is written. -/
theorem movffMoves : Obligations.MovffMoves := by
  intro s fs fd h q u p hread hwrite
  rw [exec_movff_of_read h (State.readPlace_of_readable _ _ hread)]
  exact congrArg outcome (State.writePlace_of_writable _ _ _ hwrite)

/-! ### Forbidden destinations -/

theorem forbiddenDestination_iff (cfg : Config) (addr : DataAddr) : forbiddenDestination cfg addr = true ↔
    ∃ r, sfrAt cfg addr = some r ∧ (r = .pcl ∨ r = .tosu ∨ r = .tosh ∨ r = .tosl) := by
  unfold forbiddenDestination
  cases sfrAt cfg addr with
  | none => simp
  | some r => simp [or_assoc]

theorem exec_movff_of_forbidden (fs fd : DataAddr) (s : State) (h : forbiddenDestination s.cfg fd = true) :
    exec (.movff fs fd) s = .fault (.forbiddenDestination fd) := by
  change execMovff fs fd s = _
  rw [execMovff, if_pos h]

theorem exec_movsf_of_forbidden (zs : BitVec 7) (fd : DataAddr) (s : State)
    (h : forbiddenDestination s.cfg fd = true) :
    exec (.movsf zs fd) s = .fault (.forbiddenDestination fd) := by
  change execMovsf zs fd s = _
  rw [execMovsf, if_pos h]

theorem exec_movss_of_forbidden (zs zd : BitVec 7) (x : BitVec 5) (s : State)
    (h : forbiddenDestination s.cfg (s.fsr2Offset zd) = true) :
    exec (.movss zs zd x) s = .fault (.forbiddenDestination (s.fsr2Offset zd)) := by
  change execMovss zs zd s = _
  unfold execMovss
  exact if_pos h

/-- Settles O31: the check comes before any access. -/
theorem forbiddenDestinationsFault : Obligations.ForbiddenDestinationsFault := by
  intro s fs fd zs zd x
  refine ⟨forbiddenDestination_iff s.cfg fd, fun r hr hlist => ?_⟩
  have h : forbiddenDestination s.cfg fd = true := (forbiddenDestination_iff s.cfg fd).mpr ⟨r, hr, hlist⟩
  refine ⟨exec_movff_of_forbidden fs fd s h, exec_movsf_of_forbidden zs fd s h, ?movss⟩
  rintro rfl
  exact exec_movss_of_forbidden zs zd x s h

end Machine

end Sys2Proof
end

section
/-! PROOFS. The skips (R149 to R157, R162, R163): each is a condition on the operand, handed to `skipIf`. -/

namespace Sys2Proof.Machine

/-! ### Compares and tests -/

/-- A compare or test ends as a skip from the state its read leaves. -/
theorem testSkip_skipsFrom (cond : State → Byte → Bool) (f : Byte) (a : Access) (s : State)
    (h : (s.operand f a).1.readable = true) :
    skipsFrom s (s.afterOperandRead f a) (cond (s.afterOperandRead f a) (s.operandValue f a))
      (testSkip cond f a s) := by
  rw [testSkip_of_ok cond f a s h]
  exact s.skipIf_spec _ _ (s.afterOperandRead_pc f a) (s.afterOperandRead_cfg f a) (s.afterOperandRead_prog f a)

/-- A bit test ends as a skip from the state its read leaves. -/
theorem bitSkip_skipsFrom (want : Bool) (f : Byte) (b : BitVec 3) (a : Access) (s : State)
    (h : (s.operand f a).1.readable = true) :
    skipsFrom s (s.afterOperandRead f a) ((s.operandValue f a).getLsbD b.toNat == want) (bitSkip want f b a s) := by
  rw [bitSkip_of_ok want f b a s h]
  exact s.skipIf_spec _ _ (s.afterOperandRead_pc f a) (s.afterOperandRead_cfg f a) (s.afterOperandRead_prog f a)

/-- Settles O32: reading the operand keeps W, and each condition is the one the statement gives. -/
theorem compareSkips : Obligations.CompareSkips := by
  intro s f b a h x t
  have hw : t.w = s.w := s.afterOperandRead_w f a
  have htest (cond : State → Byte → Bool) : skipsFrom s t (cond t x) (testSkip cond f a s) :=
    testSkip_skipsFrom cond f a s h
  rw [exec_cpfseq, exec_cpfsgt, exec_cpfslt, exec_tstfsz, exec_btfsc, exec_btfss, ← hw]
  refine ⟨htest fun t x => x == t.w, htest fun t x => decide (t.w.toNat < x.toNat),
    htest fun t x => decide (x.toNat < t.w.toNat), htest fun _ x => x == 0x00#8, ?btfsc, ?btfss⟩
  case btfsc => simpa only [beq_false] using bitSkip_skipsFrom false f b a s h
  case btfss => simpa only [beq_true] using bitSkip_skipsFrom true f b a s h

/-! ### Counting skips -/

/-- A destination other than PCL leaves the PC alone. -/
theorem State.afterDest_pc (s : State) (d : Dest) (p : Place) (v : Byte) (h : ¬ (d = .file ∧ p = .sfr .pcl)) :
    (s.afterDest d p v).pc = s.pc := by
  cases d with
  | wreg => rfl
  | file => exact s.afterWrite_pc v p fun hp => h ⟨rfl, hp⟩

@[simp] theorem State.afterDest_cfg (s : State) (d : Dest) (p : Place) (v : Byte) :
    (s.afterDest d p v).cfg = s.cfg := by
  cases d with
  | wreg => rfl
  | file => exact s.afterWrite_cfg v p

@[simp] theorem State.afterDest_prog (s : State) (d : Dest) (p : Place) (v : Byte) :
    (s.afterDest d p v).prog = s.prog := by
  cases d with
  | wreg => rfl
  | file => exact s.afterWrite_prog v p

/-- Off PCL, a counting skip ends as a skip on the changed byte, from the state with that byte written. -/
theorem changeSkip_skipsFrom (op : Byte → Byte) (cond : Byte → Bool) (f : Byte) (d : Dest) (a : Access) (s : State)
    (h : s.operandOk f d a) (hpcl : ¬ (d = .file ∧ (s.operand f a).1 = .sfr .pcl)) :
    skipsFrom s ((s.afterOperandRead f a).afterDest d (s.operand f a).1 (op (s.operandValue f a)))
      (cond (op (s.operandValue f a))) (changeSkip op cond f d a s) := by
  rw [changeSkip_of_ok op cond f d a s h hpcl]
  exact s.skipIf_spec _ _ ((State.afterDest_pc _ d _ _ hpcl).trans (s.afterOperandRead_pc f a))
    ((State.afterDest_cfg _ d _ _).trans (s.afterOperandRead_cfg f a))
    ((State.afterDest_prog _ d _ _).trans (s.afterOperandRead_prog f a))

/-- R68 (d): onto PCL a counting skip faults. -/
theorem changeSkip_pcl (op : Byte → Byte) (cond : Byte → Bool) (f : Byte) (a : Access) (s : State)
    (hpcl : (s.operand f a).1 = .sfr .pcl) : changeSkip op cond f .file a s = .fault .unpredictable := by
  have hread := (s.operand f a).2.readPlace_of_readable (s.operand f a).1 (by rw [hpcl]; rfl)
  simp only [changeSkip, hread, if_pos (And.intro trivial hpcl)]

/-- A byte counted down is 0 where it was 1. -/
theorem sub_one_beq_zero (x : Byte) : (x - 1#8 == 0#8) = decide (x = 1#8) := by
  rw [Bool.eq_iff_iff, beq_iff_eq, decide_eq_true_iff]
  exact sub_eq_zero

/-- A byte counted up is 0 where it was FFh. -/
theorem add_one_beq_zero (x : Byte) : (x + 1#8 == 0#8) = decide (x = 0xFF#8) := by
  rw [Bool.eq_iff_iff, beq_iff_eq, decide_eq_true_iff]
  exact add_eq_zero_iff_eq_neg

/-- Settles O33: each is `changeSkip`, whose condition on the changed byte says what the operand was. -/
theorem countSkips : Obligations.CountSkips := by
  intro s f d a h x t
  rw [exec_decfsz, exec_dcfsnz, exec_incfsz, exec_infsnz]
  refine ⟨fun hpcl => ?skips, ?faults⟩
  case skips =>
    have hskip (op : Byte → Byte) (cond : Byte → Bool) :
        skipsFrom s (t (op x)) (cond (op x)) (changeSkip op cond f d a s) :=
      changeSkip_skipsFrom op cond f d a s h hpcl
    rw [← sub_one_beq_zero, ← add_one_beq_zero]
    exact ⟨hskip (· - 1#8) (· == 0#8), hskip (· - 1#8) (· != 0#8), hskip (· + 1#8) (· == 0#8),
      hskip (· + 1#8) (· != 0#8)⟩
  case faults =>
    rintro rfl hpcl
    exact ⟨changeSkip_pcl _ _ f a s hpcl, changeSkip_pcl _ _ f a s hpcl, changeSkip_pcl _ _ f a s hpcl,
      changeSkip_pcl _ _ f a s hpcl⟩

end Sys2Proof.Machine
end

section
/-! PROOFS. The indexed moves and PUSHL (R233 to R235), and how every access to data memory faults (R67, R73). -/

namespace Sys2Proof.Machine

/-! ### MOVSF, MOVSS and PUSHL, by what their accesses answer -/

theorem exec_movsf_of_read {zs : BitVec 7} {fd : DataAddr} {s t : State} {v : Byte}
    (h : forbiddenDestination s.cfg fd = false) (hread : s.readPlace (placeAt s.cfg (s.fsr2Offset zs)) = .ok (v, t)) :
    exec (.movsf zs fd) s =
      outcome (((t.advance 4#21).resolve fd).2.writePlace ((t.advance 4#21).resolve fd).1 v) := by
  change execMovsf zs fd s = _
  simp only [execMovsf, h, Bool.false_eq_true, if_false, hread]

theorem exec_movsf_of_read_error {zs : BitVec 7} {fd : DataAddr} {s : State} {e : Fault}
    (h : forbiddenDestination s.cfg fd = false) (hread : s.readPlace (placeAt s.cfg (s.fsr2Offset zs)) = .error e) :
    exec (.movsf zs fd) s = .fault e := by
  change execMovsf zs fd s = _
  simp only [execMovsf, h, Bool.false_eq_true, if_false, hread]

theorem exec_movss_of_read {zs zd : BitVec 7} {s t : State} {v : Byte} (x : BitVec 5)
    (h : forbiddenDestination s.cfg (s.fsr2Offset zd) = false) (hdst : indirectAt s.cfg (s.fsr2Offset zd) = none)
    (hread : s.readPlace (placeAt s.cfg (s.fsr2Offset zs)) = .ok (v, t)) :
    exec (.movss zs zd x) s = outcome ((t.advance 4#21).writePlace (placeAt s.cfg (s.fsr2Offset zd)) v) := by
  change execMovss zs zd s = _
  simp only [execMovss, h, Bool.false_eq_true, if_false, hdst, hread]

theorem exec_movss_of_read_error {zs zd : BitVec 7} {s : State} {e : Fault} (x : BitVec 5)
    (h : forbiddenDestination s.cfg (s.fsr2Offset zd) = false) (hdst : indirectAt s.cfg (s.fsr2Offset zd) = none)
    (hread : s.readPlace (placeAt s.cfg (s.fsr2Offset zs)) = .error e) :
    exec (.movss zs zd x) s = .fault e := by
  change execMovss zs zd s = _
  simp only [execMovss, h, Bool.false_eq_true, if_false, hdst, hread]

/-- The unresolved place of an indirect addressing register (R69). -/
theorem placeAt_of_indirect {cfg : Config} {addr : DataAddr} (h : indirectAt cfg addr ≠ none) :
    placeAt cfg addr = .nowhere := by
  obtain ⟨r, -, hno, -⟩ | ⟨q, -, -, hp⟩ | ⟨-, hno, -⟩ := regAt_cases cfg addr
  · exact absurd hno h
  · exact hp
  · exact absurd hno h

/-- An indirect addressing register is no forbidden destination. -/
theorem forbiddenDestination_of_indirect {cfg : Config} {addr : DataAddr} (h : indirectAt cfg addr ≠ none) :
    forbiddenDestination cfg addr = false := by
  unfold forbiddenDestination
  obtain ⟨r, -, hno, -⟩ | ⟨q, -, hsfr, -⟩ | ⟨-, hno, -⟩ := regAt_cases cfg addr
  · exact absurd hno h
  · rw [hsfr]
  · exact absurd hno h

/-- R234: MOVSS onto an indirect addressing register is a NOP. -/
theorem exec_movss_of_indirect {zs zd : BitVec 7} {s : State} (x : BitVec 5)
    (h : indirectAt s.cfg (s.fsr2Offset zd) ≠ none) : exec (.movss zs zd x) s = .next (s.advance 4#21) := by
  obtain ⟨q, hq⟩ := Option.ne_none_iff_exists'.mp h
  change execMovss zs zd s = _
  simp only [execMovss, forbiddenDestination_of_indirect h, Bool.false_eq_true, if_false, hq]

theorem exec_pushl_of_write_error {k : Byte} {s : State} {e : Fault}
    (h : ((s.advance 2#21).resolve s.fsr2).2.writePlace ((s.advance 2#21).resolve s.fsr2).1 k = .error e) :
    exec (.pushl k) s = .fault e := by
  change execPushl k s = _
  simp only [execPushl, h]

/-- Settles O49: each by what its read and its write answer. -/
theorem indexedMoves : Obligations.IndexedMoves := by
  intro s zs zd fd x k src dst u
  refine ⟨fun hsrc => ?indirectSource, fun h hread hwrite => ?movsf, exec_movss_of_indirect x,
    fun h hdst hread hwrite => ?movss, fun hwrite => (exec_pushl_eq_next k s _).mpr ⟨hwrite, rfl⟩⟩
  case indirectSource =>
    have hnowhere : src = .nowhere := placeAt_of_indirect hsrc
    rw [hnowhere]
    exact ⟨rfl, rfl, rfl⟩
  case movsf =>
    rw [exec_movsf_of_read h (s.readPlace_of_readable src hread)]
    exact congrArg outcome (State.writePlace_of_writable _ _ _ hwrite)
  case movss =>
    rw [exec_movss_of_read x h hdst (s.readPlace_of_readable src hread)]
    exact congrArg outcome (State.writePlace_of_writable _ _ _ hwrite)

/-! ### An access that faults -/

theorem State.readPlace_unimplemented {p : Place} {addr : DataAddr} (s : State) (h : p = .unimplemented addr) :
    s.readPlace p = .error (.unimplementedData addr) :=
  (s.readPlace_eq_error p _).mpr ⟨addr, h, rfl⟩

theorem State.writePlace_unimplemented {p : Place} {addr : DataAddr} (s : State) (v : Byte)
    (h : p = .unimplemented addr) : s.writePlace p v = .error (.unimplementedData addr) :=
  (s.writePlace_eq_error p v _).mpr (.inl ⟨addr, h, rfl⟩)

theorem State.readPlace_stkptr {p : Place} (s : State) (h : p = .sfr .stkptr) :
    s.readPlace p = .ok (s.valueAt p, s.afterRead p) :=
  s.readPlace_of_readable p (by rw [h]; rfl)

theorem State.writePlace_stkptr {p : Place} (s : State) (v : Byte) (h : p = .sfr .stkptr) :
    s.writePlace p v = .error .unsupportedStackPointerWrite :=
  (s.writePlace_eq_error p v _).mpr (.inr ⟨h, rfl⟩)

/-! ### The shapes of the instructions with an operand -/

/-- How an access to the place `p` of an operand faults: where it is an unimplemented address, and where it is STKPTR
and is written. -/
def accessFaults (p : Place) (writes : Bool) (r : Result) : Prop :=
  (∀ addr, p = .unimplemented addr → r = .fault (.unimplementedData addr))
    ∧ (p = .sfr .stkptr → writes = true → r = .fault .unsupportedStackPointerWrite)

theorem fileOp_faults (op : State → Byte → Byte × (Flags → Flags)) (f : Byte) (d : Dest) (a : Access) (s : State) :
    accessFaults (s.operand f a).1 (d == .file) (fileOp op f d a s) := by
  refine ⟨fun addr hp => ?_, fun hp hd => ?_⟩
  · simp only [fileOp, State.readPlace_unimplemented _ hp]
  · obtain rfl : d = .file := by simpa using hd
    simp only [fileOp, State.readPlace_stkptr _ hp, State.writeDest, State.writePlace_stkptr _ _ hp]

theorem fileStore_faults (v : State → Byte) (upd : Flags → Flags) (f : Byte) (a : Access) (s : State) :
    accessFaults (s.operand f a).1 true (fileStore v upd f a s) := by
  refine ⟨fun addr hp => ?_, fun hp _ => ?_⟩
  · simp only [fileStore, State.writePlace_unimplemented _ _ hp]
  · simp only [fileStore, State.writePlace_stkptr _ _ hp]

theorem bitWrite_faults (op : Byte → Byte) (f : Byte) (a : Access) (s : State) :
    accessFaults (s.operand f a).1 true (bitWrite op f a s) := by
  refine ⟨fun addr hp => ?_, fun hp _ => ?_⟩
  · simp only [bitWrite, State.readPlace_unimplemented _ hp]
  · simp only [bitWrite, State.readPlace_stkptr _ hp, State.writePlace_stkptr _ _ hp, outcome_error]

theorem testSkip_faults (cond : State → Byte → Bool) (f : Byte) (a : Access) (s : State) :
    accessFaults (s.operand f a).1 false (testSkip cond f a s) :=
  ⟨fun addr hp => by simp only [testSkip, State.readPlace_unimplemented _ hp], nofun⟩

theorem bitSkip_faults (want : Bool) (f : Byte) (b : BitVec 3) (a : Access) (s : State) :
    accessFaults (s.operand f a).1 false (bitSkip want f b a s) :=
  ⟨fun addr hp => by simp only [bitSkip, State.readPlace_unimplemented _ hp], nofun⟩

theorem changeSkip_faults (op : Byte → Byte) (cond : Byte → Bool) (f : Byte) (d : Dest) (a : Access) (s : State) :
    accessFaults (s.operand f a).1 (d == .file) (changeSkip op cond f d a s) := by
  refine ⟨fun addr hp => ?_, fun hp hd => ?_⟩
  · simp only [changeSkip, State.readPlace_unimplemented _ hp]
  · obtain rfl : d = .file := by simpa using hd
    have hpcl : ¬ (s.operand f a).1 = .sfr .pcl := by simp [hp]
    simp only [changeSkip, State.readPlace_stkptr _ hp, hpcl, and_false, if_false, State.writeDest,
      State.writePlace_stkptr _ _ hp]

theorem mulwf_faults (f : Byte) (a : Access) (s : State) :
    accessFaults (s.operand f a).1 false (exec (.mulwf f a) s) := by
  refine ⟨fun addr hp => ?_, nofun⟩
  change execMulwf f a s = _
  simp only [execMulwf, State.readPlace_unimplemented _ hp]

/-- Every byte- and bit-oriented instruction is of one of these shapes. -/
theorem exec_faults {i : Instr} {f : Byte} {a : Access} (h : fileOperand i = some (f, a)) (s : State) :
    accessFaults (s.operand f a).1 (writesOperand i) (exec i s) := by
  cases i with
  | addwf | addwfc | andwf | comf | decf | incf | iorwf | movf | rlcf | rlncf | rrcf | rrncf | subfwb | subwf | subwfb
  | swapf | xorwf =>
    cases h
    simp only [exec_addwf, exec_addwfc, exec_andwf, exec_comf, exec_decf, exec_incf, exec_iorwf, exec_movf, exec_rlcf,
      exec_rlncf, exec_rrcf, exec_rrncf, exec_subfwb, exec_subwf, exec_subwfb, exec_swapf, exec_xorwf]
    exact fileOp_faults ..
  | decfsz | dcfsnz | incfsz | infsnz =>
    cases h
    simp only [exec_decfsz, exec_dcfsnz, exec_incfsz, exec_infsnz]
    exact changeSkip_faults ..
  | clrf | movwf | setf =>
    cases h
    simp only [exec_clrf, exec_movwf, exec_setf]
    exact fileStore_faults ..
  | negf =>
    cases h
    rw [exec_negf]
    exact fileOp_faults ..
  | mulwf =>
    cases h
    exact mulwf_faults ..
  | cpfseq | cpfsgt | cpfslt | tstfsz =>
    cases h
    simp only [exec_cpfseq, exec_cpfsgt, exec_cpfslt, exec_tstfsz]
    exact testSkip_faults ..
  | bcf | bsf | btg =>
    cases h
    simp only [exec_bcf, exec_bsf, exec_btg]
    exact bitWrite_faults ..
  | btfsc | btfss =>
    cases h
    simp only [exec_btfsc, exec_btfss]
    exact bitSkip_faults ..
  | _ => cases h

/-! ### Moves -/

/-- A move that reads `src`, then writes what it read to `dst`, faults as the read does, else as the write does. -/
theorem movesFault_of_read_write {s u : State} {src dst : Place} {r : Result}
    (herror : ∀ e, s.readPlace src = .error e → r = .fault e)
    (hread : src.readable = true → r = outcome (u.writePlace dst (s.valueAt src))) : movesFault src dst r := by
  refine ⟨fun addr hsrc => herror _ (s.readPlace_unimplemented hsrc), fun hsrc => ?_⟩
  rw [hread hsrc]
  exact ⟨fun addr hdst => congrArg outcome (u.writePlace_unimplemented _ hdst),
    fun hdst => congrArg outcome (u.writePlace_stkptr _ hdst)⟩

/-- Settles O24: the shapes of the instructions with an operand, and the moves. -/
theorem operandFaults : Obligations.OperandFaults := by
  intro s
  refine ⟨fun i f a h => exec_faults h s, fun fs fd h => ?movff, fun zs fd h => ?movsf, fun zs zd x h hdst => ?movss,
    fun k => ?pushl⟩
  case movff =>
    exact movesFault_of_read_write (fun e => exec_movff_of_read_error h) fun hread =>
      exec_movff_of_read h (State.readPlace_of_readable _ _ hread)
  case movsf =>
    exact movesFault_of_read_write (fun e => exec_movsf_of_read_error h) fun hread =>
      exec_movsf_of_read h (State.readPlace_of_readable _ _ hread)
  case movss =>
    exact movesFault_of_read_write (fun e => exec_movss_of_read_error x h hdst) fun hread =>
      exec_movss_of_read x h hdst (State.readPlace_of_readable _ _ hread)
  case pushl =>
    exact ⟨fun addr hp => exec_pushl_of_write_error (State.writePlace_unimplemented _ k hp),
      fun hp => exec_pushl_of_write_error (State.writePlace_stkptr _ k hp)⟩

end Sys2Proof.Machine
end

section
/-! PROOFS. The address of an operand and where an access to it goes (R62, R63, R66, R69). -/

namespace Sys2Proof.Machine

/-! ### The register map of R44 -/

/-- The data address that R44 suggests for a register. -/
def MappedReg.suggestedAddr : MappedReg → DataAddr
  | .core r => sfrAddr r
  | .indirect n mode => indirectAddr n mode

/-- A register that a map has at an address is listed there. -/
theorem mem_of_regAt {m : SfrMap} {addr : DataAddr} {r : MappedReg} (h : regAt m addr = some r) : (addr, r) ∈ m := by
  induction m with
  | nil => cases h
  | cons e m ih =>
    obtain ⟨b, q⟩ := e
    unfold regAt at h
    split at h
    · next hb =>
      cases h
      exact hb ▸ List.mem_cons_self
    · exact List.mem_cons_of_mem _ (ih h)

theorem suggested_lists_suggestedAddr : ∀ e ∈ SfrMap.suggested, e.1 = e.2.suggestedAddr := by
  decide

/-- The suggested map has each register at its suggested address, and nothing else. -/
theorem eq_suggestedAddr_of_regAt {addr : DataAddr} {r : MappedReg} (h : regAt SfrMap.suggested addr = some r) :
    addr = r.suggestedAddr :=
  suggested_lists_suggestedAddr _ (mem_of_regAt h)

/-! ### The Access Bank -/

theorem indexed_iff (s : State) (f : Byte) (a : Access) :
    s.indexed f a = true ↔ s.cfg.xinst = true ∧ a = .access ∧ f.toNat ≤ 0x5F := by
  simp [State.indexed, and_assoc]

theorem ea_of_indexed {s : State} {f : Byte} (h : s.indexed f .access = true) :
    s.ea f .access = s.fsr2 + f.setWidth 12 :=
  if_pos h

theorem ea_of_not_indexed {s : State} {f : Byte} (h : ¬ s.indexed f .access = true) :
    s.ea f .access = accessMap s.cfg f :=
  if_neg h

/-- The suggested `AccessMap` above 5Fh: up to 7Fh bank 0, from 80h bank 15. -/
theorem accessAt_suggested_toNat (f : Byte) :
    (accessAt AccessPiece.suggested f).toNat = if f.toNat ≤ 0x7F then f.toNat else 0xF00 + f.toNat := by
  have hf := f.isLt
  by_cases h : f.toNat ≤ 0x7F
  · rw [if_pos h, show accessAt AccessPiece.suggested f = 0x000#12 + f.setWidth 12 from if_pos h, BitVec.zero_add,
      BitVec.toNat_setWidth_of_le (by decide)]
  · have hlast : f.toNat ≤ (0xFF#8).toNat := Nat.le_of_lt_succ hf
    have hpiece : accessAt AccessPiece.suggested f = 0xF00#12 + f.setWidth 12 := (if_neg h).trans (if_pos hlast)
    rw [if_neg h, hpiece, BitVec.toNat_add, BitVec.toNat_setWidth_of_le (by decide), BitVec.toNat_ofNat]
    omega

/-- Settles O19: the two forms of an address, then what the map has at one, then the suggested map read both ways. -/
theorem effectiveAddressAndDispatch : Obligations.EffectiveAddressAndDispatch := by
  refine ⟨fun s f => ⟨rfl, fun hx hf => ?indexed, fun hx hf => ?low, fun hf => ?high⟩,
    fun cfg addr => ⟨fun r hr => ?core, placeAt_of_indirect, fun hcore hind => ?others⟩,
    fun cfg hmap => ⟨fun r => ?coreAt, fun n mode => ?indirectAt, fun addr hcore hind => ?unmapped⟩⟩
  case indexed => exact ea_of_indexed ((indexed_iff s f .access).mpr ⟨hx, rfl, hf⟩)
  case low =>
    have hno : ¬ s.indexed f .access = true := by simp [indexed_iff, hx]
    rw [ea_of_not_indexed hno, accessMap, if_pos hf, BitVec.toNat_setWidth_of_le (by decide)]
  case high =>
    have hno : ¬ s.indexed f .access = true := by simp [indexed_iff]; omega
    have hea : s.ea f .access = accessAt s.cfg.accessMap f := by
      rw [ea_of_not_indexed hno, accessMap, if_neg (by omega)]
    refine ⟨hea, fun hmap => ?_⟩
    rw [hea, hmap, accessAt_suggested_toNat]
  case core => rw [placeAt, (sfrAt_eq_some cfg addr r).mp hr]
  case others =>
    obtain ⟨r, hr, -⟩ | ⟨q, hq, -⟩ | ⟨-, -, hplace⟩ := regAt_cases cfg addr
    · simp [hr] at hcore
    · simp [hq] at hind
    · rw [hplace]
      exact ⟨fun hram => if_pos ((ramAt_iff cfg addr).mpr hram), fun hram => if_neg fun h => hram ((ramAt_iff cfg addr).mp h)⟩
  case coreAt =>
    rw [sfrAt_eq_some, hmap]
    cases r <;> rfl
  case indirectAt =>
    rw [indirectAt_eq_some, hmap]
    cases n <;> cases mode <;> rfl
  case unmapped =>
    obtain ⟨r, hr, -⟩ | ⟨⟨n, mode⟩, hq, -⟩ | ⟨hnone, hnone', -⟩ := regAt_cases cfg addr
    · rw [sfrAt_eq_some, hmap] at hr
      exact absurd (eq_suggestedAddr_of_regAt hr).symm (hcore r)
    · rw [indirectAt_eq_some, hmap] at hq
      exact absurd (eq_suggestedAddr_of_regAt hq).symm (hind n mode)
    · exact ⟨hnone, hnone'⟩

/-! ### `Resolve` -/

theorem State.setFsr_own (s : State) (n : Fsr) : s.setFsr n (s.fsr n) = s := by
  cases n <;> rfl

theorem State.resolve_of_none {s : State} {addr : DataAddr} (h : indirectAt s.cfg addr = none) :
    s.resolve addr = (placeAt s.cfg addr, s) := by
  rw [State.resolve, h]

/-- R69: an indirect addressing register goes where its FSR points and moves it, as its mode says. -/
theorem State.resolve_of_some {s : State} {addr : DataAddr} {n : Fsr} {mode : IndirectMode}
    (h : indirectAt s.cfg addr = some (n, mode)) :
    s.resolve addr = (placeAt s.cfg (indirectPointer mode (s.fsr n) s.w).1,
      s.setFsr n (indirectPointer mode (s.fsr n) s.w).2) := by
  rw [State.resolve, h]

theorem State.operand_of_indexed {s : State} {f : Byte} {a : Access} (h : s.indexed f a = true) :
    s.operand f a = (placeAt s.cfg (s.ea f a), s) :=
  if_pos h

theorem State.operand_of_not_indexed {s : State} {f : Byte} {a : Access} (h : s.indexed f a = false) :
    s.operand f a = s.resolve (s.ea f a) :=
  if_neg (by simp [h])

/-- Settles O20: indexed or resolved, and for each mode the pointer it uses. -/
theorem operandAddressing : Obligations.OperandAddressing := by
  intro s f a
  refine ⟨fun hno => ?direct, fun hidx hind => ?indexed, fun hidx n => ?indirect, fun addr => placeAt_of_indirect, rfl,
    fun v => rfl⟩
  case direct =>
    cases hidx : s.indexed f a with
    | true => exact State.operand_of_indexed hidx
    | false => rw [State.operand_of_not_indexed hidx, State.resolve_of_none hno]
  case indexed => rw [State.operand_of_indexed hidx, placeAt_of_indirect hind]
  case indirect =>
    have hat {mode : IndirectMode} (hmode : indirectAt s.cfg (s.ea f a) = some (n, mode)) :
        s.operand f a = (placeAt s.cfg (indirectPointer mode (s.fsr n) s.w).1,
          s.setFsr n (indirectPointer mode (s.fsr n) s.w).2) := by
      rw [State.operand_of_not_indexed hidx, State.resolve_of_some hmode]
    refine ⟨fun h => ?_, hat, hat, hat, fun h => ?_⟩
    · exact (hat h).trans (congrArg (Prod.mk _) (s.setFsr_own n))
    · exact (hat h).trans (congrArg (Prod.mk _) (s.setFsr_own n))

end Sys2Proof.Machine
end

section
/-! PROOFS. Reading and writing one place (R66 to R68, R73, R74): RAM, the peripheral addresses and the core
registers. -/

namespace Sys2Proof.Machine

/-! ### RAM and the peripheral addresses -/

theorem Place.readable_iff (p : Place) : p.readable = true ↔ ∀ b, p ≠ .unimplemented b := by
  cases p <;> simp [Place.readable]

theorem Place.writable_iff (p : Place) :
    p.writable = true ↔ p ≠ .sfr .stkptr ∧ ∀ b, p ≠ .unimplemented b := by
  cases p with
  | sfr r => cases r <;> simp [Place.writable]
  | _ => simp [Place.writable]

/-- A byte written to RAM is read back. -/
theorem State.ramByte_afterWrite_same (s : State) (v : Byte) (addr : DataAddr) :
    (s.afterWrite v (.ram addr)).ramByte addr = v := by
  simp [State.ramByte, State.afterWrite]

/-- Settles O21, by the lemmas about places; RAM by read after write. -/
theorem ramReadAfterWrite : Obligations.RamReadAfterWrite := by
  intro s p addr v
  exact ⟨p.readable_iff, p.writable_iff, s.readPlace_of_readable p, s.writePlace_of_writable p v, rfl,
    s.ramByte_afterWrite_same v addr, fun b hb => s.afterWrite_ramByte v (.ram addr) b (by simpa using hb.symm), rfl,
    rfl, rfl⟩

/-! ### PCL -/

/-- Bit 0 of what a write of PCL loads is dropped from the byte written. -/
theorem pclTarget_and_mask (u : BitVec 5) (h v : Byte) :
    (u ++ h ++ v : ProgAddr) &&& 0x1FFFFE#21 = u ++ h ++ (v &&& 0xFE#8) := by
  rw [show (0x1FFFFE#21) = BitVec.allOnes 5 ++ BitVec.allOnes 8 ++ 0xFE#8 by decide, BitVec.and_append,
    BitVec.and_append, BitVec.and_allOnes, BitVec.and_allOnes]

theorem State.setPc_pclTarget (s t : State) (v : Byte) :
    t.setPc (s.pclTarget v) = { t with pc := s.pclatu ++ s.pclath ++ (v &&& 0xFE#8) } := by
  rw [State.setPc, State.pclTarget, pclTarget_and_mask]

/-- Settles O23: the read by definition, the write through PCLATU : PCLATH. -/
theorem pclAccess : Obligations.PclAccess := by
  intro s v
  exact ⟨rfl, congrArg Except.ok (s.setPc_pclTarget s v)⟩

/-! ### The bytes of a register -/

theorem extractLsb'_toNat_eq {n : Nat} (x : BitVec n) (k w : Nat) :
    (x.extractLsb' k w).toNat = x.toNat / 2 ^ k % 2 ^ w := by
  rw [BitVec.extractLsb'_toNat, Nat.shiftRight_eq_div_pow]

theorem lowByte_toNat {n : Nat} (x : BitVec n) : (x.extractLsb' 0 8).toNat = x.toNat % 2 ^ 8 := by
  rw [extractLsb'_toNat_eq, Nat.pow_zero, Nat.div_one]

theorem upperByte_toNat (x : ProgAddr) : ((x.extractLsb' 16 5).setWidth 8).toNat = x.toNat / 2 ^ 16 := by
  have hx := x.isLt
  rw [BitVec.toNat_setWidth_of_le (by decide), extractLsb'_toNat_eq]
  omega

theorem fsrHigh_toNat (x : DataAddr) : ((x.extractLsb' 8 4).setWidth 8).toNat = x.toNat / 2 ^ 8 := by
  have hx := x.isLt
  rw [BitVec.toNat_setWidth_of_le (by decide), extractLsb'_toNat_eq]
  omega

/-- STKPTR: the two flags above the count of levels. -/
theorem stkptr_toNat (ful unf : Bool) {n : Nat} (h : n < 32) :
    (BitVec.ofBool ful ++ BitVec.ofBool unf ++ 0#1 ++ BitVec.ofNat 5 n).toNat
      = 2 ^ 7 * ful.toNat + 2 ^ 6 * unf.toNat + n := by
  rw [append_toNat, append_toNat, append_toNat, BitVec.toNat_ofBool, BitVec.toNat_ofBool, BitVec.toNat_ofNat,
    BitVec.toNat_ofNat, Nat.mod_eq_of_lt h]
  omega

/-! ### A byte of a register replaced: the byte, and its neighbours -/

/-- A field of a field. -/
theorem extractLsb'_inside {n a w b k : Nat} (x : BitVec n) (h : b + k ≤ w) :
    (x.extractLsb' a w).extractLsb' b k = x.extractLsb' (a + b) k := by
  apply BitVec.eq_of_getLsbD_eq
  intro i hi
  have hw : b + i < w := by omega
  simp only [BitVec.getLsbD_extractLsb', hi, hw, decide_true, Bool.true_and, Nat.add_assoc]

theorem replaceUpper_upper (v : Byte) (x : ProgAddr) :
    (v.extractLsb' 0 5 ++ x.extractLsb' 0 16 : ProgAddr).extractLsb' 16 5 = v.extractLsb' 0 5 :=
  BitVec.extractLsb'_append_eq_left

theorem replaceUpper_high (v : Byte) (x : ProgAddr) :
    (v.extractLsb' 0 5 ++ x.extractLsb' 0 16 : ProgAddr).extractLsb' 8 8 = x.extractLsb' 8 8 := by
  rw [BitVec.extractLsb'_append_eq_of_add_le (by decide), BitVec.extractLsb'_extractLsb'_of_le (by decide)]

theorem replaceUpper_low (v : Byte) (x : ProgAddr) :
    (v.extractLsb' 0 5 ++ x.extractLsb' 0 16 : ProgAddr).extractLsb' 0 8 = x.extractLsb' 0 8 := by
  rw [BitVec.extractLsb'_append_eq_of_add_le (by decide), BitVec.extractLsb'_extractLsb'_of_le (by decide)]

theorem replaceHigh_upper (v : Byte) (x : ProgAddr) :
    (x.extractLsb' 16 5 ++ v ++ x.extractLsb' 0 8 : ProgAddr).extractLsb' 16 5 = x.extractLsb' 16 5 := by
  rw [BitVec.append_assoc, BitVec.cast_eq]
  exact BitVec.extractLsb'_append_eq_left

theorem replaceHigh_high (v : Byte) (x : ProgAddr) :
    (x.extractLsb' 16 5 ++ v ++ x.extractLsb' 0 8 : ProgAddr).extractLsb' 8 8 = v := by
  rw [BitVec.extractLsb'_append_eq_of_le (by decide)]
  exact BitVec.extractLsb'_append_eq_right

theorem replaceHigh_low (v : Byte) (x : ProgAddr) :
    (x.extractLsb' 16 5 ++ v ++ x.extractLsb' 0 8 : ProgAddr).extractLsb' 0 8 = x.extractLsb' 0 8 :=
  BitVec.extractLsb'_append_eq_right

theorem replaceLow_upper (v : Byte) (x : ProgAddr) :
    (x.extractLsb' 8 13 ++ v : ProgAddr).extractLsb' 16 5 = x.extractLsb' 16 5 := by
  rw [BitVec.extractLsb'_append_eq_of_le (by decide)]
  exact extractLsb'_inside x (by decide)

theorem replaceLow_high (v : Byte) (x : ProgAddr) :
    (x.extractLsb' 8 13 ++ v : ProgAddr).extractLsb' 8 8 = x.extractLsb' 8 8 := by
  rw [BitVec.extractLsb'_append_eq_of_le (by decide)]
  exact extractLsb'_inside x (by decide)

theorem replaceLow_low (v : Byte) (x : ProgAddr) : (x.extractLsb' 8 13 ++ v : ProgAddr).extractLsb' 0 8 = v :=
  BitVec.extractLsb'_append_eq_right

/-! ### The bits of a byte that a register implements -/

theorem and_1F (v : Byte) : (v.extractLsb' 0 5).setWidth 8 = v &&& 0x1F#8 := by
  revert v
  decide

theorem and_0F (v : Byte) : (v.extractLsb' 0 4).setWidth 8 = v &&& 0x0F#8 := by
  revert v
  decide

theorem and_FF (v : Byte) : v = v &&& 0xFF#8 :=
  BitVec.and_allOnes.symm

/-- The Status byte keeps the bits that are flags (R23, R67). -/
theorem Flags.toByte_ofByte (l : StatusLayout) (v : Byte) :
    (Flags.ofByte l v).toByte l
      = v &&& Flags.toByte { n := true, ov := true, z := true, dc := true, c := true } l := by
  have hbit (j k : Nat) : (v.getLsbD k && decide (j = k)) = (v.getLsbD j && decide (j = k)) := by
    by_cases h : j = k
    · rw [h]
    · simp [h]
  apply BitVec.eq_of_getLsbD_eq
  intro j _
  simp only [BitVec.getLsbD_and, Flags.toByte_getLsbD, Flags.ofByte, Bool.true_and, Bool.and_or_distrib_left, hbit j]

/-! ### The top of the return stack -/

theorem State.setTos_of_empty {s : State} (h : s.stack = []) (v : ProgAddr) : s.setTos v = s := by
  rw [State.setTos, h]

theorem State.tos_setTos {s : State} (h : s.stack ≠ []) (v : ProgAddr) : (s.setTos v).tos = v := by
  obtain ⟨u, rest, hs⟩ := List.exists_cons_of_ne_nil h
  simp only [State.setTos, hs, State.tos]

theorem State.tos_writeSfr_other (s : State) (v : Byte) (r : Sfr) (hu : r ≠ .tosu) (hh : r ≠ .tosh) (hl : r ≠ .tosl) :
    (s.writeSfr v r).tos = s.tos := by
  have h : (s.writeSfr v r).stack = s.stack :=
    s.afterWrite_stack v (.sfr r) (by simpa using hu) (by simpa using hh) (by simpa using hl)
  rw [State.tos, State.tos, h]

/-! ### A write of a core register -/

/-- The TOS bytes of an empty stack are not there to be written (R32). -/
def State.tosLost (s : State) (r : Sfr) : Prop := s.stack = [] ∧ (r = .tosu ∨ r = .tosh ∨ r = .tosl)

/-- A core register keeps the implemented bits of what is written to it (R67). -/
theorem readSfr_writeSfr_same (s : State) (v : Byte) (r : Sfr) (hpcl : r ≠ .pcl) (hstkptr : r ≠ .stkptr)
    (hlost : ¬ s.tosLost r) : (s.writeSfr v r).readSfr r = v &&& sfrMask s.cfg r := by
  have htos (hr : r = .tosu ∨ r = .tosh ∨ r = .tosl) (x : ProgAddr) : (s.setTos x).tos = x :=
    State.tos_setTos (fun hs => hlost ⟨hs, hr⟩) x
  cases r with
  | pcl => exact absurd rfl hpcl
  | stkptr => exact absurd rfl hstkptr
  | tosu =>
    simp only [State.writeSfr, State.readSfr, htos (.inl rfl), replaceUpper_upper]
    exact and_1F v
  | tosh =>
    simp only [State.writeSfr, State.readSfr, htos (.inr (.inl rfl)), replaceHigh_high]
    exact and_FF v
  | tosl =>
    simp only [State.writeSfr, State.readSfr, htos (.inr (.inr rfl)), replaceLow_low]
    exact and_FF v
  | tblptru => exact (congrArg (BitVec.setWidth 8) (replaceUpper_upper v s.tblptr)).trans (and_1F v)
  | tblptrh => exact (replaceHigh_high v s.tblptr).trans (and_FF v)
  | tblptrl => exact (replaceLow_low v s.tblptr).trans (and_FF v)
  | pclatu => exact and_1F v
  | fsr0h | fsr1h | fsr2h => exact (congrArg (BitVec.setWidth 8) (append_high _ _)).trans (and_0F v)
  | fsr0l | fsr1l | fsr2l => exact (append_low _ _).trans (and_FF v)
  | bsr => exact and_0F v
  | status => exact Flags.toByte_ofByte s.cfg.statusLayout v
  | pclath | tablat | prodh | prodl | intcon | wreg | rcon => exact and_FF v

/-- A write of a core register changes what no other core register reads as. -/
theorem readSfr_writeSfr_other (s : State) (v : Byte) (r r' : Sfr) (hpcl : r ≠ .pcl) (hne : r' ≠ r) :
    (s.writeSfr v r).readSfr r' = s.readSfr r' := by
  have hplace {q : Sfr} (h : q ≠ r) : Place.sfr r ≠ .sfr q := fun he => h (Place.sfr.inj he).symm
  have htos (x : ProgAddr) (g : ProgAddr → Byte) (hg : g x = g s.tos) : g (s.setTos x).tos = g s.tos := by
    by_cases hs : s.stack = []
    · rw [State.setTos_of_empty hs]
    · rw [State.tos_setTos hs, hg]
  cases r' with
  | tosu =>
    obtain rfl | hh := eq_or_ne r .tosh
    · exact htos _ (fun x => (x.extractLsb' 16 5).setWidth 8) (congrArg _ (replaceHigh_upper v _))
    obtain rfl | hl := eq_or_ne r .tosl
    · exact htos _ (fun x => (x.extractLsb' 16 5).setWidth 8) (congrArg _ (replaceLow_upper v _))
    exact congrArg (fun x => (x.extractLsb' 16 5).setWidth 8) (s.tos_writeSfr_other v r hne.symm hh hl)
  | tosh =>
    obtain rfl | hu := eq_or_ne r .tosu
    · exact htos _ (fun x => x.extractLsb' 8 8) (replaceUpper_high v _)
    obtain rfl | hl := eq_or_ne r .tosl
    · exact htos _ (fun x => x.extractLsb' 8 8) (replaceLow_high v _)
    exact congrArg (fun x => x.extractLsb' 8 8) (s.tos_writeSfr_other v r hu hne.symm hl)
  | tosl =>
    obtain rfl | hu := eq_or_ne r .tosu
    · exact htos _ (fun x => x.extractLsb' 0 8) (replaceUpper_low v _)
    obtain rfl | hh := eq_or_ne r .tosh
    · exact htos _ (fun x => x.extractLsb' 0 8) (replaceHigh_low v _)
    exact congrArg (fun x => x.extractLsb' 0 8) (s.tos_writeSfr_other v r hu hh hne.symm)
  | tblptru =>
    obtain rfl | hh := eq_or_ne r .tblptrh
    · exact congrArg (BitVec.setWidth 8) (replaceHigh_upper v s.tblptr)
    obtain rfl | hl := eq_or_ne r .tblptrl
    · exact congrArg (BitVec.setWidth 8) (replaceLow_upper v s.tblptr)
    exact congrArg (fun x => (x.extractLsb' 16 5).setWidth 8) (s.afterWrite_tblptr v (.sfr r) (hplace hne) (hplace hh.symm) (hplace hl.symm))
  | tblptrh =>
    obtain rfl | hu := eq_or_ne r .tblptru
    · exact replaceUpper_high v s.tblptr
    obtain rfl | hl := eq_or_ne r .tblptrl
    · exact replaceLow_high v s.tblptr
    exact congrArg (fun x => x.extractLsb' 8 8) (s.afterWrite_tblptr v (.sfr r) (hplace hu.symm) (hplace hne) (hplace hl.symm))
  | tblptrl =>
    obtain rfl | hu := eq_or_ne r .tblptru
    · exact replaceUpper_low v s.tblptr
    obtain rfl | hh := eq_or_ne r .tblptrh
    · exact replaceHigh_low v s.tblptr
    exact congrArg (fun x => x.extractLsb' 0 8) (s.afterWrite_tblptr v (.sfr r) (hplace hu.symm) (hplace hh.symm) (hplace hne))
  | fsr0h =>
    obtain rfl | hl := eq_or_ne r .fsr0l
    · exact congrArg (BitVec.setWidth 8) (append_high _ v)
    exact congrArg (fun x => (x.extractLsb' 8 4).setWidth 8) (s.afterWrite_fsr0 v (.sfr r) (hplace hne) (hplace hl.symm))
  | fsr0l =>
    obtain rfl | hh := eq_or_ne r .fsr0h
    · exact append_low _ _
    exact congrArg (fun x => x.extractLsb' 0 8) (s.afterWrite_fsr0 v (.sfr r) (hplace hh.symm) (hplace hne))
  | fsr1h =>
    obtain rfl | hl := eq_or_ne r .fsr1l
    · exact congrArg (BitVec.setWidth 8) (append_high _ v)
    exact congrArg (fun x => (x.extractLsb' 8 4).setWidth 8) (s.afterWrite_fsr1 v (.sfr r) (hplace hne) (hplace hl.symm))
  | fsr1l =>
    obtain rfl | hh := eq_or_ne r .fsr1h
    · exact append_low _ _
    exact congrArg (fun x => x.extractLsb' 0 8) (s.afterWrite_fsr1 v (.sfr r) (hplace hh.symm) (hplace hne))
  | fsr2h =>
    obtain rfl | hl := eq_or_ne r .fsr2l
    · exact congrArg (BitVec.setWidth 8) (append_high _ v)
    exact congrArg (fun x => (x.extractLsb' 8 4).setWidth 8) (s.afterWrite_fsr2 v (.sfr r) (hplace hne) (hplace hl.symm))
  | fsr2l =>
    obtain rfl | hh := eq_or_ne r .fsr2h
    · exact append_low _ _
    exact congrArg (fun x => x.extractLsb' 0 8) (s.afterWrite_fsr2 v (.sfr r) (hplace hh.symm) (hplace hne))
  | stkptr =>
    change (s.afterWrite v (.sfr r)).readSfr .stkptr = _
    rw [State.readSfr, State.afterWrite_stkful, State.afterWrite_stkunf, State.afterWrite_stack_length]
    rfl
  | pcl => exact congrArg (fun x => (x + 2#21).extractLsb' 0 8) (s.afterWrite_pc v (.sfr r) (hplace hne))
  | pclatu => exact congrArg (BitVec.setWidth 8) (s.afterWrite_pclatu v (.sfr r) (hplace hne))
  | pclath => exact s.afterWrite_pclath v (.sfr r) (hplace hne)
  | tablat => exact s.afterWrite_tablat v (.sfr r) (hplace hne)
  | prodh => exact s.afterWrite_prodh v (.sfr r) (hplace hne)
  | prodl => exact s.afterWrite_prodl v (.sfr r) (hplace hne)
  | intcon => exact s.afterWrite_intcon v (.sfr r) (hplace hne)
  | wreg => exact s.afterWrite_w v (.sfr r) (hplace hne)
  | bsr => exact congrArg (BitVec.setWidth 8) (s.afterWrite_bsr v (.sfr r) (hplace hne))
  | rcon => exact s.afterWrite_rcon v (.sfr r) (hplace hne)
  | status =>
    exact congrArg₂ Flags.toByte (s.afterWrite_flags v (.sfr r) (hplace hne))
      (congrArg Config.statusLayout (s.afterWrite_cfg v (.sfr r)))

/-- With a bit of its own for each flag, the Status byte reads as the flags, and 0 elsewhere (R23). -/
theorem Flags.toByte_layout (fl : Flags) (l : StatusLayout) (h : Config.layoutWf l = true) :
    (fl.toByte l).getLsbD l.n = fl.n ∧ (fl.toByte l).getLsbD l.ov = fl.ov ∧ (fl.toByte l).getLsbD l.z = fl.z
      ∧ (fl.toByte l).getLsbD l.dc = fl.dc ∧ (fl.toByte l).getLsbD l.c = fl.c
      ∧ ∀ k, k ∉ [l.n.val, l.ov.val, l.z.val, l.dc.val, l.c.val] → (fl.toByte l).getLsbD k = false := by
  have hback := fl.ofByte_toByte l h
  refine ⟨congrArg Flags.n hback, congrArg Flags.ov hback, congrArg Flags.z hback, congrArg Flags.dc hback,
    congrArg Flags.c hback, fun k hk => ?_⟩
  simp only [List.mem_cons, List.not_mem_nil, or_false, not_or] at hk
  simp [Flags.toByte_getLsbD, hk]

/-- A read of a core register other than PCL has no side effect. -/
theorem readPlace_sfr (s : State) (r : Sfr) (h : r ≠ .pcl) : s.readPlace (.sfr r) = .ok (s.readSfr r, s) := by
  cases r with
  | pcl => exact absurd rfl h
  | _ => rfl

/-- A write of a core register keeps the entries below the top of the stack. -/
theorem writeSfr_stack_tail (s : State) (v : Byte) (r : Sfr) : (s.writeSfr v r).stack.tail = s.stack.tail := by
  have htos (x : ProgAddr) : (s.setTos x).stack.tail = s.stack.tail := by
    cases hs : s.stack <;> simp [State.setTos, hs]
  cases r with
  | tosu | tosh | tosl => exact htos _
  | _ => rfl

theorem writeSfr_ram (s : State) (v : Byte) (r : Sfr) : (s.writeSfr v r).ram = s.ram := by
  cases r <;> simp [State.writeSfr]

/-- Settles O22: what each register reads as, then a write: the register itself, the other registers, the rest of the
state. -/
theorem coreRegisterReadAfterWrite : Obligations.CoreRegisterReadAfterWrite := by
  intro s l num
  have hmid (x : ProgAddr) : (x.extractLsb' 8 8).toNat = x.toNat / 2 ^ 8 % 2 ^ 8 := extractLsb'_toNat_eq x 8 8
  refine ⟨readPlace_sfr s, fun hs => ?empty, fun tos rest hs => ?tos, fun hlen => stkptr_toNat _ _ hlen,
    BitVec.toNat_setWidth_of_le (by decide), rfl, upperByte_toNat _, hmid _, lowByte_toNat _, rfl, rfl, rfl, rfl, rfl,
    fsrHigh_toNat _, lowByte_toNat _, fsrHigh_toNat _, lowByte_toNat _, fsrHigh_toNat _, lowByte_toNat _, rfl,
    BitVec.toNat_setWidth_of_le (by decide), rfl, s.flags.toByte_layout l, fun v r hpcl hstkptr => ?write⟩
  case empty =>
    have htos : s.tos = 0x000000#21 := by rw [State.tos, hs]
    refine ⟨?_, ?_, ?_⟩ <;> simp only [num, State.readSfr, htos] <;> rfl
  case tos =>
    have htos : s.tos = tos := by rw [State.tos, hs]
    rw [← htos]
    exact ⟨upperByte_toNat _, hmid _, lowByte_toNat _⟩
  case write =>
    intro t
    have hplace : Place.sfr r ≠ .sfr .pcl := by simpa using hpcl
    refine ⟨s.writePlace_of_writable (.sfr r) v (by simp [Place.writable_iff, hstkptr]), ?_⟩
    split
    · next hlost =>
      obtain ⟨hs, rfl | rfl | rfl⟩ := hlost
      all_goals exact State.setTos_of_empty hs _
    · next hlost =>
      exact ⟨readSfr_writeSfr_same s v r hpcl hstkptr hlost, fun r' => readSfr_writeSfr_other s v r r' hpcl,
        fun hr => s.afterWrite_flags v (.sfr r) (by simpa using hr), s.afterWrite_pc v (.sfr r) hplace,
        s.afterWrite_stack_length v (.sfr r), writeSfr_stack_tail s v r, s.afterWrite_stkful v (.sfr r),
        s.afterWrite_stkunf v (.sfr r), s.afterWrite_ws v (.sfr r), s.afterWrite_statuss v (.sfr r),
        s.afterWrite_bsrs v (.sfr r), s.afterWrite_holding v (.sfr r), s.afterWrite_wdt v (.sfr r),
        s.afterWrite_wdtPost v (.sfr r), s.afterWrite_asleep v (.sfr r), writeSfr_ram s v r,
        s.afterWrite_ramEpoch v (.sfr r), s.afterWrite_draws v (.sfr r), s.afterWrite_outputs v (.sfr r) nofun,
        s.afterWrite_env v (.sfr r), s.afterWrite_prog v (.sfr r), s.afterWrite_cfg v (.sfr r)⟩

end Sys2Proof.Machine
end

section
/-! PROOFS. Fetch and decode (R70 to R72, R99, R252): what a running machine does by the words at its PC. -/

namespace Sys2Proof

/-- The first word of a two-word instruction alone: reserved, or its second word is missing. -/
theorem decode_eq_noSecondWord {xinst : Bool} {w : Word} (htwo : isTwoWord xinst w = true)
    (hres : decodeFirst xinst (wordHi w) (wordLo w) ≠ .reserved) :
    decode xinst (wordsBytes [w]) = .error .noSecondWord := by
  have hfits := decodeFirst_fits xinst w
  rw [htwo] at hfits
  simp only [wordsBytes, decode]
  split
  next h =>
    rw [h] at hfits
    exact absurd hfits.2 (by decide)
  next h => exact absurd h hres
  next => rfl

namespace Machine

/-! ### The words at the PC -/

theorem State.fetchWord_of_lt {s : State} {a : ProgAddr} (h : a.toNat < s.cfg.progBytes) :
    s.fetchWord a = some (wordOf (s.progByte (a + 1#21)) (s.progByte a)) :=
  if_pos h

theorem State.fetchWord_of_le {s : State} {a : ProgAddr} (h : s.cfg.progBytes ≤ a.toNat) : s.fetchWord a = none :=
  if_neg (Nat.not_lt.mpr h)

theorem State.fetchBytes_of_none {s : State} (h : s.fetchWord s.pc = none) : s.fetchBytes = [] := by
  rw [State.fetchBytes, h]

theorem State.fetchBytes_of_one {s : State} {w : Word} (h : s.fetchWord s.pc = some w)
    (h2 : s.fetchWord (s.pc + 2#21) = none) : s.fetchBytes = wordsBytes [w] := by
  simp only [State.fetchBytes, h, h2]

theorem State.fetchBytes_of_two {s : State} {w w2 : Word} (h : s.fetchWord s.pc = some w)
    (h2 : s.fetchWord (s.pc + 2#21) = some w2) : s.fetchBytes = wordsBytes [w, w2] := by
  simp only [State.fetchBytes, h, h2]

/-- The word at the PC comes first, whatever follows it. -/
theorem State.fetchBytes_of_some {s : State} {w : Word} (h : s.fetchWord s.pc = some w) :
    ∃ tail, s.fetchBytes = wordsBytes [w] ++ tail := by
  cases h2 : s.fetchWord (s.pc + 2#21) with
  | none => exact ⟨[], State.fetchBytes_of_one h h2⟩
  | some w2 => exact ⟨wordsBytes [w2], State.fetchBytes_of_two h h2⟩

/-- The bytes given to the decoder: four, or two at the end of program memory. -/
theorem State.fetchBytes_eq {s : State} (h : s.pc.toNat < s.cfg.progBytes) :
    s.fetchBytes = if (s.pc + 2#21).toNat < s.cfg.progBytes then
        [s.progByte s.pc, s.progByte (s.pc + 1#21), s.progByte (s.pc + 2#21), s.progByte (s.pc + 2#21 + 1#21)]
      else [s.progByte s.pc, s.progByte (s.pc + 1#21)] := by
  have hw := State.fetchWord_of_lt h
  split
  next h2 =>
    rw [State.fetchBytes_of_two hw (State.fetchWord_of_lt h2)]
    simp only [wordsBytes, wordLo_wordOf, wordHi_wordOf]
  next h2 =>
    rw [State.fetchBytes_of_one hw (State.fetchWord_of_le (Nat.le_of_not_lt h2))]
    simp only [wordsBytes, wordLo_wordOf, wordHi_wordOf]

/-- Settles O8: a program byte and word by definition; a step runs what the bytes at the PC decode to. -/
theorem stepRunsDecodedInstruction : Obligations.StepRunsDecodedInstruction := by
  intro s
  refine ⟨fun a v hwf => And.intro (Memory.getD_store_same Config.erasedByte s.prog a.toNat v hwf) fun b hb => ?other,
    fun a => rfl, fun i rest hrun hpc hdecode _ => ?runs⟩
  case other =>
    have hne : b.toNat ≠ a.toNat := fun h => hb (BitVec.eq_of_toNat_eq h)
    exact congrArg (fun o => Option.getD o Config.erasedByte) (Memory.lookup_store_other _ s.prog _ _ v hne)
  case runs =>
    rw [← State.fetchBytes_eq hpc] at hdecode
    exact step_of_fetch s i hrun ((s.fetch_eq_ok i).mpr ⟨rest, hdecode⟩)

/-! ### Faults -/

/-- A running machine whose fetch faults stops with that fault. -/
theorem step_of_fetch_error {s : State} {e : Fault} (hrun : s.running) (h : s.fetch = .error e) :
    step s = .fault e := by
  obtain ⟨hquiet, hawake⟩ := hrun
  simp [step, hquiet, hawake, h]

/-- Settles O9: each fault is what the decoder answers on the bytes that are there. -/
theorem fetchFaultsInOrder : Obligations.FetchFaultsInOrder := by
  intro s hrun
  refine ⟨fun hpc => ?outOfRange, fun w hw hdecode => ?reserved, fun w hw hw2 htwo hdecode => ?noSecond,
    fun w w2 hw hw2 hdecode => ?malformed⟩ <;> apply step_of_fetch_error hrun
  case outOfRange =>
    rw [State.fetch, State.fetchBytes_of_none (State.fetchWord_of_le hpc)]
    rfl
  case reserved =>
    obtain ⟨tail, htail⟩ := State.fetchBytes_of_some hw
    have hres := (decode_eq_reserved s.cfg.xinst w []).mp hdecode
    rw [State.fetch, htail, (decode_eq_reserved s.cfg.xinst w tail).mpr hres]
  case noSecond =>
    have hres : decodeFirst s.cfg.xinst (wordHi w) (wordLo w) ≠ .reserved := fun h =>
      hdecode ((decode_eq_reserved s.cfg.xinst w []).mpr h)
    rw [State.fetch, State.fetchBytes_of_one hw hw2, decode_eq_noSecondWord htwo hres]
  case malformed => rw [State.fetch, State.fetchBytes_of_two hw hw2, hdecode]

end Machine

end Sys2Proof
end

section
/-! PROOFS. Add8, Sub8 and the decimal adjust, against the integers (R38, R39, R181). -/

namespace Sys2Proof.Machine

/-! ### Add8 -/

theorem byte_toInt (x : Byte) : x.toInt = if x.toNat < 128 then (x.toNat : Int) else (x.toNat : Int) - 256 := by
  rw [BitVec.toInt_eq_toNat_cond]
  split <;> split <;> omega

theorem byte_msb (x : Byte) : x.msb = decide (128 ≤ x.toNat) :=
  BitVec.msb_eq_decide x

/-- The sum of the bytes modulo 256, and the hundreds of it in C. -/
theorem add8_toNat (a b : Byte) (cin : Bool) :
    (add8 a b cin).1.toNat = (a.toNat + b.toNat + cin.toNat) % 256 :=
  BitVec.toNat_ofNat _ 8

/-- OV: two operands of one sign whose sum has the other. -/
theorem add8_ov_iff (a b : Byte) (cin : Bool) : (add8 a b cin).2.ov = true ↔
    (a.toInt + b.toInt + cin.toNat < -128 ∨ 127 < a.toInt + b.toInt + cin.toNat) := by
  have ha := a.isLt
  have hb := b.isLt
  have hc := cin.toNat_le
  have hsum := add8_toNat a b cin
  have hov : (add8 a b cin).2.ov = (a.msb == b.msb && (add8 a b cin).1.msb != a.msb) := rfl
  rw [hov, byte_msb, byte_msb, byte_msb, hsum, byte_toInt, byte_toInt]
  generalize a.toNat = x at *
  generalize b.toNat = y at *
  simp only [Bool.and_eq_true, beq_iff_eq, bne_iff_ne, ne_eq, decide_eq_decide]
  omega

/-- Settles O14: the sum modulo 256 with its carry; OV by the two signs. -/
theorem add8IsIntegerSum : Obligations.Add8IsIntegerSum := by
  intro a b cin r
  have ha := a.isLt
  have hb := b.isLt
  have hc := cin.toNat_le
  refine ⟨?sum, decide_eq_true_iff, beq_iff_eq, r.1.msb_eq_getLsbD_last, add8_ov_iff a b cin⟩
  case sum =>
    have hcarry : r.2.c = decide (256 ≤ a.toNat + b.toNat + cin.toNat) := rfl
    rw [add8_toNat, hcarry]
    by_cases h : 256 ≤ a.toNat + b.toNat + cin.toNat
    · rw [decide_eq_true h, Bool.toNat_true]
      omega
    · rw [decide_eq_false h, Bool.toNat_false]
      omega

/-! ### Sub8 -/

/-- Settles O15: Sub8 adds the complement, 255 - b as a number and -1 - b as a signed one. -/
theorem sub8IsIntegerDifference : Obligations.Sub8IsIntegerDifference := by
  intro a b bin r
  obtain ⟨hsum, hdc, hz, hn, hov⟩ := add8IsIntegerSum a (~~~b) (!bin)
  have hcompl : (~~~b).toNat = 255 - b.toNat := BitVec.toNat_not
  have hcomplInt : (~~~b).toInt = -1 - b.toInt := by
    rw [BitVec.toInt_not, byte_toInt]
    have := b.isLt
    split <;> simp [Int.bmod] <;> omega
  have hbin : (!bin).toNat = 1 - bin.toNat := by cases bin <;> rfl
  have ha := a.isLt
  have hb := b.isLt
  have hbinle := bin.toNat_le
  have hr := r.1.isLt
  change r.1.toNat + 256 * r.2.c.toNat = _ at hsum
  rw [hcompl, hbin] at hsum hdc
  rw [hcomplInt, hbin] at hov
  refine ⟨?difference, ?carry, hdc.trans ?digit, hz, hn, hov.trans ?overflow⟩
  case difference =>
    have hc := r.2.c.toNat_le
    omega
  case carry =>
    rw [← Bool.toNat_eq_one]
    have hc := r.2.c.toNat_le
    omega
  case digit => omega
  case overflow => omega

/-! ### The decimal adjust -/

/-- R181: W with its low digit adjusted, the carry of that going into the high digit. -/
def adjustedLow (w : Byte) (dc : Bool) : Nat := w.toNat + (if 9 < w.toNat % 16 ∨ dc = true then 6 else 0)

/-- The high digit and the adjusted low one. -/
theorem adjustedLow_eq_digits (w : Byte) (dc : Bool) :
    adjustedLow w dc
      = w.toNat / 16 * 16 + if 9 < w.toNat % 16 || dc then w.toNat % 16 + 6 else w.toNat % 16 := by
  simp only [adjustedLow, Bool.or_eq_true, decide_eq_true_eq]
  split <;> omega

/-- The decimal adjust on the byte as a whole: 6 for the low digit, 96 for the high one. -/
theorem decimalAdjust_eq (sticky : Bool) (w : Byte) (dc c : Bool) :
    decimalAdjust sticky w dc c =
      (BitVec.ofNat 8 (if 9 < adjustedLow w dc / 16 ∨ c = true then adjustedLow w dc + 96 else adjustedLow w dc),
        if sticky = true then decide (9 < adjustedLow w dc / 16 ∨ c = true)
        else decide ((9 < adjustedLow w dc / 16 ∨ c = true) ∧ 16 ≤ adjustedLow w dc / 16 + 6)) := by
  rw [adjustedLow_eq_digits, decimalAdjust]
  generalize (if (decide (9 < w.toNat % 16) || dc) = true then w.toNat % 16 + 6 else w.toNat % 16) = low
  have hhigh : (w.toNat / 16 * 16 + low) / 16 = w.toNat / 16 + low / 16 := by omega
  rw [hhigh]
  generalize w.toNat / 16 = high
  have hadj : (decide (9 < high + low / 16) || c) = decide (9 < high + low / 16 ∨ c = true) := by
    rw [Bool.eq_iff_iff]
    simp
  simp only [hadj, decide_eq_true_eq]
  refine Prod.ext ?byte ?carry
  case byte =>
    apply BitVec.eq_of_toNat_eq
    rw [BitVec.toNat_ofNat, BitVec.toNat_ofNat]
    split <;> omega
  case carry =>
    by_cases h : 9 < high + low / 16 ∨ c = true
    · simp [h]
    · have hno : ¬ 16 ≤ high + low / 16 := by omega
      simp [h, hno]

/-- Settles O18, by `decimalAdjust_eq`. -/
theorem dawAdjusts : Obligations.DawAdjusts := by
  intro s heven t adj
  rw [exec_daw, decimalAdjust_eq]
  exact congrArg Host.Outcome.next (State.advance_of_even _ 2#21 heven rfl)

/-- Two packed decimal bytes added and adjusted. -/
theorem adjust_of_bcd_sum {x y : Byte} (hx : isBcd x) (hy : isBcd y) :
    let r := add8 x y false
    let adj := 9 < adjustedLow r.1 r.2.dc / 16 ∨ r.2.c = true
    let v := BitVec.ofNat 8 (if adj then adjustedLow r.1 r.2.dc + 96 else adjustedLow r.1 r.2.dc)
    isBcd v ∧ bcdValue v + 100 * (decide adj).toNat = bcdValue x + bcdValue y := by
  intro r adj v
  obtain ⟨hxl, hxh⟩ := hx
  obtain ⟨hyl, hyh⟩ := hy
  have hr : r.1.toNat = (x.toNat + y.toNat) % 256 := add8_toNat x y false
  have hdc : r.2.dc = true ↔ 16 ≤ x.toNat % 16 + y.toNat % 16 := decide_eq_true_iff
  have hc : r.2.c = true ↔ 256 ≤ x.toNat + y.toNat := decide_eq_true_iff
  have hlow : adjustedLow r.1 r.2.dc = r.1.toNat + if 9 < r.1.toNat % 16 ∨ r.2.dc = true then 6 else 0 := rfl
  have hv : v.toNat = (if adj then adjustedLow r.1 r.2.dc + 96 else adjustedLow r.1 r.2.dc) % 256 :=
    BitVec.toNat_ofNat _ 8
  have hadj : adj ↔ 9 < adjustedLow r.1 r.2.dc / 16 ∨ 256 ≤ x.toNat + y.toNat := or_congr_right hc
  simp only [hr, hdc] at hlow
  unfold isBcd bcdValue
  by_cases h : adj
  · rw [if_pos h] at hv
    rw [hadj] at h
    rw [decide_eq_true (hadj.mpr h), Bool.toNat_true]
    split at hlow <;> omega
  · rw [if_neg h] at hv
    rw [decide_eq_false h, Bool.toNat_false]
    rw [hadj] at h
    split at hlow <;> omega

/-- Settles O17, by `adjust_of_bcd_sum`, on what ADDLW leaves. -/
theorem addThenAdjustIsDecimalSum : Obligations.AddThenAdjustIsDecimalSum := by
  intro s k hsticky hw hk
  have hsum := adjust_of_bcd_sum hw hk
  refine ⟨_, _, exec_addlw k s, exec_daw _, ?_⟩
  simpa [hsticky, decimalAdjust_eq] using hsum

end Sys2Proof.Machine
end

section
/-! PROOFS. The control operations (R170 to R191): where the PC goes, and what is pushed, popped, saved and restored. -/

namespace Sys2Proof.Machine

/-! ### Branches and jumps -/

/-- A signed offset in words, as one in bytes (R98). -/
theorem signExtend_shiftLeft_one {k : Nat} (n : BitVec k) : n.signExtend 21 <<< 1 = BitVec.ofInt 21 (2 * n.toInt) := by
  rw [BitVec.shiftLeft_eq_mul_twoPow, BitVec.signExtend, mul_comm, BitVec.ofInt_mul]
  rfl

theorem State.branchTarget_eq (s : State) {k : Nat} (n : BitVec k) :
    s.branchTarget n = s.pc + 2#21 + BitVec.ofInt 21 (2 * n.toInt) := by
  rw [State.branchTarget, signExtend_shiftLeft_one]

theorem State.setPc_branchTarget (s t : State) {k : Nat} (n : BitVec k) (heven : s.pc.getLsbD 0 = false) :
    t.setPc (s.branchTarget n) = { t with pc := s.pc + 2#21 + BitVec.ofInt 21 (2 * n.toInt) } := by
  rw [t.setPc_of_even _ (s.branchTarget_even n heven), s.branchTarget_eq]

/-- The end of an instruction of one word that leaves all but the PC to what comes before. -/
theorem State.advance_two {s : State} (heven : s.pc.getLsbD 0 = false) :
    s.advance 2#21 = { s with pc := s.pc + 2#21 } :=
  s.advance_of_even 2#21 heven rfl

/-- R170 to R178: a conditional branch. -/
theorem branchIf_of_even (c : Bool) (n : Byte) (s : State) (heven : s.pc.getLsbD 0 = false) :
    branchIf c n s = .next { s with
      pc := if c = true then s.pc + 2#21 + BitVec.ofInt 21 (2 * n.toInt) else s.pc + 2#21 } := by
  cases c with
  | false => exact congrArg Host.Outcome.next (State.advance_two heven)
  | true => exact congrArg Host.Outcome.next (s.setPc_branchTarget s n heven)

/-- Settles O35: each is `branchIf` on its flag or its complement. -/
theorem conditionalBranches : Obligations.ConditionalBranches := by
  intro s n heven go
  rw [exec_bc, exec_bnc, exec_bn, exec_bnn, exec_bov, exec_bnov, exec_bz, exec_bnz]
  have hgo (c : Bool) : branchIf c n s = go c := branchIf_of_even c n s heven
  exact ⟨hgo _, hgo _, hgo _, hgo _, hgo _, hgo _, hgo _, hgo _⟩

/-- The address `k : 0` is even. -/
theorem append_zero_even (k : BitVec 20) : (k ++ 0#1 : ProgAddr).getLsbD 0 = false := by
  rw [BitVec.getLsbD_append, if_pos (by decide)]
  rfl

theorem State.setPc_append_zero (s : State) (k : BitVec 20) : s.setPc (k ++ 0#1) = { s with pc := k ++ 0#1 } :=
  s.setPc_of_even _ (append_zero_even k)

/-- Settles O36: each only loads the PC, with an even address. -/
theorem jumpsAndNops : Obligations.JumpsAndNops := by
  intro s n k x heven
  rw [exec_bra, exec_goto, exec_nop, exec_nopF, s.setPc_branchTarget s n heven, s.setPc_append_zero,
    State.advance_two heven]
  exact ⟨rfl, rfl, rfl, rfl⟩

/-! ### Calls -/

/-- Settles O37: each pushes, CALL with s = 1 saves, and then each loads the PC with an even address (CALLW with W,
its bit 0 dropped). -/
theorem callsPush : Obligations.CallsPush := by
  intro s k n heven hroom
  refine ⟨(exec_call_eq_next k false s _).mpr ⟨hroom, ?call⟩, (exec_call_eq_next k true s _).mpr ⟨hroom, ?fast⟩,
    (exec_rcall_eq_next n s _).mpr ⟨hroom, ?rcall⟩, (exec_callw_eq_next s _).mpr ⟨hroom, ?callw⟩,
    (exec_push_eq_next s _).mpr ⟨hroom, ?push⟩⟩
  case call => exact (State.setPc_append_zero { s with stack := (s.pc + 4#21) :: s.stack } k).symm
  case fast => exact (State.setPc_append_zero ({ s with stack := (s.pc + 4#21) :: s.stack }.saveFast) k).symm
  case rcall => exact (s.setPc_branchTarget { s with stack := (s.pc + 2#21) :: s.stack } n heven).symm
  case callw => exact (s.setPc_pclTarget { s with stack := (s.pc + 2#21) :: s.stack } s.w).symm
  case push => exact (State.advance_two (s := { s with stack := (s.pc + 2#21) :: s.stack }) heven).symm

/-! ### Returns -/

/-- Loading the PC drops bit 0 (R27). -/
theorem State.setPc_eq (s : State) (a : ProgAddr) : s.setPc a = { s with pc := a.extractLsb' 1 20 ++ 0#1 } := by
  rw [State.setPc, and_mask]

/-- `pc <- Pop()` on a stack that is not empty. -/
theorem State.popPc_of_cons {s : State} {v : ProgAddr} {rest : List ProgAddr} (h : s.stack = v :: rest) :
    s.popPc = .ok { s with stack := rest, pc := v.extractLsb' 1 20 ++ 0#1 } :=
  (s.popPc_eq_ok _).mpr ⟨v, rest, h, (State.setPc_eq { s with stack := rest } v).symm⟩

theorem State.restoreFast_true (s : State) : s.restoreFast true = { s with
    w := s.ws, flags := Flags.ofByte s.cfg.statusLayout s.statuss, bsr := s.bsrs.extractLsb' 0 4 } := by
  rw [State.restoreFast, if_pos rfl, BitVec.setWidth_eq_extractLsb' (by decide)]

/-- R190: RETURN on a stack that is not empty. -/
theorem exec_ret_of_cons {s : State} {v : ProgAddr} {rest : List ProgAddr} (fast : Bool) (h : s.stack = v :: rest) :
    exec (.ret fast) s = .next ({ s with stack := rest, pc := v.extractLsb' 1 20 ++ 0#1 }.restoreFast fast) := by
  rw [← State.setPc_eq { s with stack := rest } v]
  exact (exec_ret_eq_next fast s _).mpr ⟨v, rest, h, rfl⟩

/-- Settles O38: each pops; the address popped loses bit 0 where it goes to the PC. -/
theorem returnsPop : Obligations.ReturnsPop := by
  intro s v rest k k6 heven hs back
  refine ⟨exec_ret_of_cons false hs, ?fast, ?retlw, (exec_pop_eq_next s _).mpr ⟨v, rest, hs, ?pop⟩, ?addulnk, ?subulnk⟩
  case fast => rw [exec_ret_of_cons true hs, State.restoreFast_true]
  case retlw => rw [exec_retlw, State.popPc_of_cons (s := { s with w := k }) hs, outcome_ok]
  case pop => exact (State.advance_two (s := { s with stack := rest }) heven).symm
  case addulnk =>
    rw [exec_addulnk, State.popPc_of_cons (s := { s with fsr2 := s.fsr2 + k6.setWidth 12 }) hs, outcome_ok]
  case subulnk =>
    rw [exec_subulnk, State.popPc_of_cons (s := { s with fsr2 := s.fsr2 - k6.setWidth 12 }) hs, outcome_ok]

/-- R259: RETFIE sets one enable. -/
theorem State.retfieEnable_eq (s : State) : s.retfieEnable = { s with
    intcon := if s.rcon.getLsbD 7 = true ∧ s.intcon.getLsbD 7 = true then s.intcon ||| 0x40#8
      else s.intcon ||| 0x80#8 } := by
  by_cases h : s.rcon.getLsbD 7 = true ∧ s.intcon.getLsbD 7 = true
  · rw [if_pos h]
    exact if_pos (by simpa [State.ipen, State.gieh] using h)
  · rw [if_neg h]
    exact if_neg (by simpa [State.ipen, State.gieh] using h)

/-- R188: RETFIE on a stack that is not empty. -/
theorem exec_retfie_of_cons {s : State} {v : ProgAddr} {rest : List ProgAddr} (fast : Bool) (h : s.stack = v :: rest) :
    exec (.retfie fast) s = .next ({ s with
      stack := rest, pc := v.extractLsb' 1 20 ++ 0#1
      intcon := if s.rcon.getLsbD 7 = true ∧ s.intcon.getLsbD 7 = true then s.intcon ||| 0x40#8
        else s.intcon ||| 0x80#8 }.restoreFast fast) := by
  rw [exec_retfie, outcome_eq_next]
  refine (s.interruptReturn_eq_ok _ fast).mpr ⟨v, rest, h, ?_⟩
  rw [State.setPc_eq, State.retfieEnable_eq]

/-- Settles O39: the pop, the enable, then the shadow registers. -/
theorem retfieReturnsAndEnables : Obligations.RetfieReturnsAndEnables := by
  intro s v rest hs enabled back
  refine ⟨exec_retfie_of_cons false hs, ?fast⟩
  case fast => rw [exec_retfie_of_cons true hs, State.restoreFast_true]

/-! ### The limits of the return stack -/

/-- Settles O40: each of these pushes or pops before anything else. -/
theorem stackLimitsFault : Obligations.StackLimitsFault := by
  intro s k n k8 k6 fast
  refine ⟨fun hfull => ?full, fun hempty => ?empty⟩
  case full =>
    have hpush (v : ProgAddr) : s.push v = .error (.stackOverflow s.pc) :=
      (s.push_eq_error v _).mpr ⟨hfull.ge, rfl⟩
    refine ⟨?call, ?rcall, ?callw, ?push⟩
    case call => change execCall k fast s = _; rw [execCall, hpush]
    case rcall => change execRcall n s = _; rw [execRcall, hpush]
    case callw => change execCallw s = _; rw [execCallw, hpush]
    case push => change execPush s = _; rw [execPush, hpush]
  case empty =>
    have hpop : s.pop = .error (.stackUnderflow s.pc) := (s.pop_eq_error _).mpr ⟨hempty, rfl⟩
    have hpopPc (t : State) (hstack : t.stack = s.stack) (hpc : t.pc = s.pc) :
        t.popPc = .error (.stackUnderflow s.pc) :=
      (t.popPc_eq_error _).mpr ⟨hstack.trans hempty, by rw [hpc]⟩
    refine ⟨?ret, ?retfie, ?retlw, ?pop, ?addulnk, ?subulnk⟩
    case ret => change execReturn fast s = _; rw [execReturn, hpopPc s rfl rfl]
    case retfie => rw [exec_retfie, State.interruptReturn, hpopPc s rfl rfl, outcome_error]
    case retlw => rw [exec_retlw, hpopPc { s with w := k8 } rfl rfl, outcome_error]
    case pop => change execPop s = _; rw [execPop, hpop]
    case addulnk => rw [exec_addulnk, hpopPc { s with fsr2 := s.fsr2 + k6.setWidth 12 } rfl rfl, outcome_error]
    case subulnk => rw [exec_subulnk, hpopPc { s with fsr2 := s.fsr2 - k6.setWidth 12 } rfl rfl, outcome_error]

/-! ### Fast call and return -/

theorem bsr_saved (b : BitVec 4) : (b.setWidth 8).extractLsb' 0 4 = b := by
  revert b
  decide

/-- An even address comes back from the stack as it was pushed. -/
theorem pushed_even {a : ProgAddr} (h : a.getLsbD 0 = false) : a.extractLsb' 1 20 ++ 0#1 = a := by
  rw [← and_mask, and_even a h]

/-- Settles O41: CALL leaves the shadow registers that RETURN takes, and an even return address. -/
theorem fastCallReturnRestores : Obligations.FastCallReturnRestores := by
  intro s t t' k heven hlayout hcall hstack hws hstatuss hbsrs hcfg
  obtain ⟨-, rfl⟩ := (exec_call_eq_next k true s t).mp hcall
  refine ⟨_, exec_ret_of_cons true hstack, ?_⟩
  rw [State.restoreFast_true]
  refine ⟨hws, ?flags, ?bsr, rfl, pushed_even (even_add _ _ heven rfl)⟩
  case flags =>
    change Flags.ofByte t'.cfg.statusLayout t'.statuss = s.flags
    rw [hcfg, hstatuss]
    exact s.flags.ofByte_toByte s.cfg.statusLayout hlayout
  case bsr =>
    change t'.bsrs.extractLsb' 0 4 = s.bsr
    rw [hbsrs]
    exact bsr_saved s.bsr

/-! ### CLRWDT and SLEEP -/

/-- Settles O42: TO and PD are written one after the other, here by one mask. -/
theorem watchdogAndSleep : Obligations.WatchdogAndSleep := by
  intro s heven
  have hboth : withBit (withBit s.rcon 3 true) 2 true = s.rcon ||| 0x0C#8 := BitVec.or_assoc ..
  rw [exec_clrwdt, exec_sleep]
  refine ⟨?clrwdt, congrArg Host.Outcome.next (State.advance_of_even _ 2#21 heven rfl)⟩
  case clrwdt =>
    rw [← hboth]
    exact congrArg Host.Outcome.next (State.advance_of_even _ 2#21 heven rfl)

end Sys2Proof.Machine
end

section
/-! PROOFS. Literal loads, the table instructions and the FSR arithmetic (R203 to R206, R214 to R222, R230, R236). -/

namespace Sys2Proof.Machine

/-! ### Literals -/

/-- Settles O45: each writes its register and moves the PC on. -/
theorem literalLoads : Obligations.LiteralLoads := by
  intro s k k12 heven
  have hnext (n : ProgAddr) (hn : n.getLsbD 0 = false) (t : State) (ht : t.pc = s.pc) :
      Host.Outcome.next (t.advance n) = (.next { t with pc := s.pc + n } : Result) := by
    rw [t.advance_of_even n (by rw [ht]; exact heven) hn, ht]
  have hlow : k.extractLsb' 0 4 = BitVec.ofNat 4 (k.toNat % 16) := by
    apply BitVec.eq_of_toNat_eq
    rw [extractLsb'_toNat_eq, BitVec.toNat_ofNat]
    omega
  rw [exec_movlw, exec_movlb, exec_lfsr, exec_lfsr, exec_lfsr, exec_mullw, literalOp_of_even _ _ s heven, ← hlow]
  exact ⟨rfl, hnext 2#21 rfl _ rfl, hnext 4#21 rfl _ rfl, hnext 4#21 rfl _ rfl, hnext 4#21 rfl _ rfl, _, _,
    product_bytes s.w k, hnext 2#21 rfl _ rfl⟩

/-! ### Tables -/

/-- The pointer one back, modulo 2^21 (R217, R221). -/
theorem tblptr_sub_one (p : ProgAddr) : p + 0x1FFFFF#21 = p - 1#21 := by
  rw [BitVec.sub_eq_add_neg]
  rfl

/-- A table read where TBLPTR points into program memory. -/
theorem tableReadOp_of_lt {s : State} {before : ProgAddr} (after : ProgAddr) (heven : s.pc.getLsbD 0 = false)
    (h : (s.tblptr + before).toNat < s.cfg.progBytes) :
    tableReadOp before after s = .next { s with
      tablat := s.progByte (s.tblptr + before), tblptr := s.tblptr + before + after, pc := s.pc + 2#21 } :=
  (tableReadOp_eq_next before after s _).mpr ⟨h, (State.advance_two (s := { s with
    tablat := s.progByte (s.tblptr + before), tblptr := s.tblptr + before + after }) heven).symm⟩

/-- A table read beyond program memory. -/
theorem tableReadOp_of_le {s : State} {before : ProgAddr} (after : ProgAddr)
    (h : s.cfg.progBytes ≤ (s.tblptr + before).toNat) :
    tableReadOp before after s = .fault (.tableReadOutOfRange (s.tblptr + before)) := by
  rw [tableReadOp, (State.tableRead_eq_error (s.moveTblptr before) _).mpr ⟨h, rfl⟩]
  rfl

/-- Settles O46: `tableReadOp` before and after its fault, with the two moves of TBLPTR put in. -/
theorem tableReads : Obligations.TableReads := by
  intro s heven reads
  have hreads (before after : ProgAddr) :
      reads (tableReadOp before after s) (s.tblptr + before) (s.tblptr + before + after) :=
    ⟨tableReadOp_of_lt after heven, tableReadOp_of_le after⟩
  rw [exec_tblrd, exec_tblrdPostInc, exec_tblrdPostDec, exec_tblrdPreInc]
  refine ⟨?here, ?postInc, ?postDec, ?preInc⟩
  case here => simpa only [BitVec.add_zero] using hreads 0#21 0#21
  case postInc => simpa only [BitVec.add_zero] using hreads 0#21 1#21
  case postDec => simpa only [BitVec.add_zero, tblptr_sub_one] using hreads 0#21 0x1FFFFF#21
  case preInc => simpa only [BitVec.add_zero] using hreads 1#21 0#21

/-- One element of a list replaced. -/
theorem getD_set {α : Type} (l : List α) (i n : Nat) (v d : α) (hn : n < l.length) :
    (l.set i v).getD n d = if n = i then v else l.getD n d := by
  rw [List.getD_eq_getElem?_getD, List.getD_eq_getElem?_getD, List.getElem?_set]
  by_cases h : i = n
  · simp [h, hn]
  · simp [h, Ne.symm h]

/-- Settles O47: `tableWriteOp` with the two moves of TBLPTR put in; one element of the list is replaced. -/
theorem tableWrites : Obligations.TableWrites := by
  intro s heven wrote
  have hwrote (before after : ProgAddr) :
      wrote (tableWriteOp before after s) (s.tblptr + before) (s.tblptr + before + after) := by
    refine ⟨s.holding.set (holdingIndex (s.tblptr + before)) s.tablat, ?_, List.length_set, fun n hn =>
      getD_set _ _ n _ _ hn⟩
    rw [tableWriteOp_eq]
    exact congrArg Host.Outcome.next (State.advance_two (s := { s with
      holding := s.holding.set (holdingIndex (s.tblptr + before)) s.tablat, tblptr := s.tblptr + before + after })
      heven)
  rw [exec_tblwt, exec_tblwtPostInc, exec_tblwtPostDec, exec_tblwtPreInc]
  refine ⟨?here, ?postInc, ?postDec, ?preInc⟩
  case here => simpa only [BitVec.add_zero] using hwrote 0#21 0#21
  case postInc => simpa only [BitVec.add_zero] using hwrote 0#21 1#21
  case postDec => simpa only [BitVec.add_zero, tblptr_sub_one] using hwrote 0#21 0x1FFFFF#21
  case preInc => simpa only [BitVec.add_zero] using hwrote 1#21 0#21

/-! ### FSR arithmetic -/

/-- Settles O48: each writes its FSR and moves the PC on. -/
theorem fsrArithmetic : Obligations.FsrArithmetic := by
  intro s k heven
  have hnext (n : Fsr) (v : DataAddr) :
      Host.Outcome.next ((s.setFsr n v).advance 2#21) = (.next { s.setFsr n v with pc := s.pc + 2#21 } : Result) := by
    rw [State.advance_two (by rw [State.setFsr_pc]; exact heven), State.setFsr_pc]
  exact ⟨hnext .fsr0 _, hnext .fsr1 _, hnext .fsr2 _, hnext .fsr0 _, hnext .fsr1 _, hnext .fsr2 _⟩

end Sys2Proof.Machine
end

section
/-! PROOFS. Interrupts (R256, R257, R259, R261): when one can be taken, what taking it does, and what the return from
it brings back. -/

namespace Sys2Proof.Machine

/-! ### Which event is acted upon -/

theorem State.irqReady_high_iff (s : State) :
    s.irqReady .high = true ↔ ∃ src, s.env.irqHigh = some src ∧ s.canTake .high src = true := by
  unfold State.irqReady
  cases s.env.irqHigh <;> simp

theorem State.irqReady_low_iff (s : State) :
    s.irqReady .low = true ↔ ∃ src, s.env.irqLow = some src ∧ s.canTake .low src = true := by
  unfold State.irqReady
  cases s.env.irqLow <;> simp

/-- With IPEN = 0 a core source needs GIE, a peripheral one PEIE as well (R256). -/
theorem State.canTake_of_not_ipen {s : State} (h : s.rcon.getLsbD 7 = false) (level : IrqLevel) :
    s.canTake level .core = s.intcon.getLsbD 7
      ∧ s.canTake level .peripheral = (s.intcon.getLsbD 7 && s.intcon.getLsbD 6) := by
  simp only [State.canTake, State.ipen, State.gieh, State.giel, h, Bool.false_eq_true, if_false, and_self]

/-- With IPEN = 1 a high request needs GIEH, a low one GIEL as well (R256). -/
theorem State.canTake_of_ipen {s : State} (h : s.rcon.getLsbD 7 = true) (src : IrqSource) :
    s.canTake .high src = s.intcon.getLsbD 7
      ∧ s.canTake .low src = (s.intcon.getLsbD 7 && s.intcon.getLsbD 6) := by
  simp only [State.canTake, State.ipen, State.gieh, State.giel, h, if_true, and_self]

/-- With no reset and no time-out, the requests decide (R261). -/
theorem State.boundary_of_irqs {s : State} (hreset : s.env.resetEvent = none) (hwdt : s.env.wdtTimeout = false) :
    s.boundary = if s.irqReady .high then some (.irq .high)
      else if s.irqReady .low then some (.irq .low)
      else if s.asleep && (s.env.irqHigh.isSome || s.env.irqLow.isSome) then some .wake
      else none := by
  simp only [State.boundary, hreset, hwdt, Bool.false_eq_true, if_false]

/-- Settles O56: the enables of each level, then the events in the order of R261. -/
theorem boundaryOrder : Obligations.BoundaryOrder := by
  intro s
  refine ⟨fun hipen level => ?noPriority, fun hipen src => ?priority, fun kind hreset => ?reset,
    fun hreset hwdt => ?timeout, fun hreset hwdt => ?irqs, fun hquiet hasleep => ?sleeps⟩
  case noPriority =>
    obtain ⟨hcore, hperipheral⟩ := s.canTake_of_not_ipen hipen level
    simp [hcore, hperipheral]
  case priority =>
    obtain ⟨hhigh, hlow⟩ := s.canTake_of_ipen hipen src
    simp [hhigh, hlow]
  case reset => rw [State.boundary, hreset]
  case timeout => simp only [State.boundary, hreset, hwdt, if_true]
  case irqs =>
    rw [State.boundary_of_irqs hreset hwdt]
    refine ⟨fun src hsrc htake => ?high, fun src hsrc htake hnot => ?low, fun hnot hnot' => ?neither⟩
    case high => rw [if_pos (s.irqReady_high_iff.mpr ⟨src, hsrc, htake⟩)]
    case low =>
      have hno : ¬ s.irqReady .high = true := by
        rw [s.irqReady_high_iff]
        rintro ⟨src', hsrc', htake'⟩
        simp [hnot src' hsrc'] at htake'
      rw [if_neg hno, if_pos (s.irqReady_low_iff.mpr ⟨src, hsrc, htake⟩)]
    case neither =>
      have hno : ¬ s.irqReady .high = true := by
        rw [s.irqReady_high_iff]
        rintro ⟨src', hsrc', htake'⟩
        simp [hnot src' hsrc'] at htake'
      have hno' : ¬ s.irqReady .low = true := by
        rw [s.irqReady_low_iff]
        rintro ⟨src', hsrc', htake'⟩
        simp [hnot' src' hsrc'] at htake'
      rw [if_neg hno, if_neg hno']
      simp [Option.isSome_iff_ne_none]
  case sleeps => simp only [step, hquiet, hasleep, if_true]

/-! ### Entry -/

theorem step_of_boundary {s : State} {b : Boundary} (h : s.boundary = some b) :
    step s = outcome (s.takeBoundary b) := by
  rw [step, h]

/-- The state with the request of a level withdrawn. -/
def State.withdraw (s : State) (level : IrqLevel) : State :=
  { s with env := match level with
      | .high => { s.env with irqHigh := none }
      | .low => { s.env with irqLow := none } }

/-- Taking an interrupt withdraws its request and enters it. -/
theorem step_of_irq {s : State} {level : IrqLevel} (h : s.boundary = some (.irq level)) :
    step s = outcome ((s.withdraw level).interruptEntry level) := by
  rw [step_of_boundary h]
  cases level <;> rfl

theorem Config.vectors_even {c : Config} (h : c.wf = true) :
    c.resetVector.getLsbD 0 = false ∧ c.highVector.getLsbD 0 = false ∧ c.lowVector.getLsbD 0 = false := by
  simp only [Config.wf, Bool.and_eq_true, beq_iff_eq, and_assoc] at h
  obtain ⟨hreset, hhigh, hlow, -⟩ := h
  exact ⟨hreset, hhigh, hlow⟩

/-- Settles O57: the request is withdrawn, and entry is a push that succeeds or faults. -/
theorem interruptEntry : Obligations.InterruptEntry := by
  intro s level hirq hwf hi
  obtain ⟨-, hhigh, hlow⟩ := Config.vectors_even hwf
  rw [step_of_irq hirq]
  refine ⟨fun hroom => ?enters, fun hfull => ?overflows⟩
  case enters =>
    rw [outcome_eq_next]
    refine (State.interruptEntry_eq_ok _ _ level).mpr ⟨hroom, ?_⟩
    have heven : (if hi = true then s.cfg.highVector else s.cfg.lowVector).getLsbD 0 = false := by
      split
      · exact hhigh
      · exact hlow
    rw [← and_even _ heven]
    rfl
  case overflows =>
    rw [outcome_eq_fault]
    exact (State.interruptEntry_eq_error _ level _).mpr ⟨hfull.ge, rfl⟩

/-! ### Entry and return -/

/-- A request that is acted upon can be taken. -/
theorem State.irqReady_of_boundary {s : State} {level : IrqLevel} (h : s.boundary = some (.irq level)) :
    s.irqReady level = true := by
  unfold State.boundary at h
  split at h
  · simp at h
  · split_ifs at h with hwdt hhigh hlow hwake
    · simp at h
    · cases h
      exact hhigh
    · cases h
      exact hlow
    · simp at h

/-- R256: what is taken needs GIEH, and the low level GIEL as well where priorities are on. -/
theorem State.enables_of_irqReady {s : State} {level : IrqLevel} (h : s.irqReady level = true) :
    s.intcon.getLsbD 7 = true ∧ (s.asHigh level = false → s.rcon.getLsbD 7 = true ∧ s.intcon.getLsbD 6 = true) := by
  obtain ⟨src, htake⟩ : ∃ src, s.canTake level src = true := by
    cases level with
    | high =>
      obtain ⟨src, -, htake⟩ := s.irqReady_high_iff.mp h
      exact ⟨src, htake⟩
    | low =>
      obtain ⟨src, -, htake⟩ := s.irqReady_low_iff.mp h
      exact ⟨src, htake⟩
  cases hipen : s.rcon.getLsbD 7 with
  | false =>
    obtain ⟨hcore, hperipheral⟩ := State.canTake_of_not_ipen hipen level
    have hhigh : s.asHigh level = true := by rw [State.asHigh, State.ipen, hipen, Bool.not_false, Bool.or_true]
    refine ⟨?_, fun hlow => absurd (hhigh.symm.trans hlow) (by decide)⟩
    cases src with
    | core => rwa [hcore] at htake
    | peripheral =>
      rw [hperipheral, Bool.and_eq_true] at htake
      exact htake.1
  | true =>
    obtain ⟨hhigh, hlow⟩ := State.canTake_of_ipen hipen src
    cases level with
    | high => exact ⟨by rwa [hhigh] at htake, fun h => by simp [State.asHigh] at h⟩
    | low =>
      rw [hlow, Bool.and_eq_true] at htake
      exact ⟨htake.1, fun _ => ⟨rfl, htake.2⟩⟩

/-- The enable that entry clears is the one RETFIE sets. -/
theorem enable_set_again (x : Byte) (k : Fin 8) (h : x.getLsbD k.val = true) :
    withBit x k.val false ||| 0x01#8 <<< k.val = x := by
  apply BitVec.eq_of_getLsbD_eq
  intro j _
  have hset : (withBit (withBit x k.val false) k.val true).getLsbD j = x.getLsbD j := by
    rw [withBit_getLsbD _ _ _ _ k.isLt, withBit_getLsbD _ _ _ _ k.isLt]
    split
    next hj => rw [hj, h]
    next => rfl
  exact hset

/-- RETFIE restores INTCON as it was before entry. -/
theorem intcon_restored {s : State} {level : IrqLevel} (h : s.irqReady level = true) {entered : Byte}
    (hentered : entered = if s.asHigh level then withBit s.intcon 7 false else withBit s.intcon 6 false) :
    (if s.rcon.getLsbD 7 = true ∧ entered.getLsbD 7 = true then entered ||| 0x40#8 else entered ||| 0x80#8)
      = s.intcon := by
  rw [hentered]
  obtain ⟨hgieh, hgiel⟩ := s.enables_of_irqReady h
  cases hhigh : s.asHigh level with
  | true =>
    have hclear : (withBit s.intcon 7 false).getLsbD 7 = false := withBit_getLsbD s.intcon 7 7 false (by decide)
    simp only [if_true, hclear, Bool.false_eq_true, and_false, if_false]
    exact enable_set_again s.intcon 7 hgieh
  | false =>
    obtain ⟨hipen, hgiel⟩ := hgiel hhigh
    have hkept : (withBit s.intcon 6 false).getLsbD 7 = true := by
      rw [withBit_getLsbD s.intcon 6 7 false (by decide), if_neg (by decide), hgieh]
    simp only [Bool.false_eq_true, if_false, hipen, hkept, and_self, if_true]
    exact enable_set_again s.intcon 6 hgiel

/-- Settles O58: entry and RETFIE undo each other, the enable among it, for what was taken was enabled. -/
theorem interruptReturnRestores : Obligations.InterruptReturnRestores := by
  intro s t t' level heven hlayout hirq hstep hstack hws hstatuss hbsrs hintcon hrcon hcfg
  rw [step_of_irq hirq, outcome_eq_next] at hstep
  obtain ⟨-, rfl⟩ := (State.interruptEntry_eq_ok _ t level).mp hstep
  have hcons : t'.stack = s.pc :: s.stack := hstack
  refine ⟨_, exec_retfie_of_cons true hcons, ?_⟩
  rw [State.restoreFast_true]
  refine ⟨pushed_even heven, hws, ?flags, ?bsr, rfl, ?intcon⟩
  case flags =>
    change Flags.ofByte t'.cfg.statusLayout t'.statuss = s.flags
    rw [hcfg, hstatuss]
    exact s.flags.ofByte_toByte s.cfg.statusLayout hlayout
  case bsr =>
    change t'.bsrs.extractLsb' 0 4 = s.bsr
    rw [hbsrs]
    exact bsr_saved s.bsr
  case intcon =>
    have hrconKept : t'.rcon = s.rcon := hrcon
    have hrestored := intcon_restored (State.irqReady_of_boundary hirq) (entered := t'.intcon) hintcon
    rwa [← hrconKept] at hrestored

end Sys2Proof.Machine
end

section
/-! PROOFS. Resets and wake-up (R48, R187, R263, R266, R282): what a reset of either class loads and keeps, by the
columns of `ResetValues` and by the suggested table of R48. -/

namespace Sys2Proof.Machine

/-! ### What the statements about a reset do not see -/

/-- The words of R48 see IPEN of RCON and the two enables of INTCON, and none of what else changes here. -/
theorem resetLoads_update {c : ResetColumn} {s t : State} (h : resetLoads c s t) {i r : Byte}
    (hgieh : i.getLsbD 7 = t.intcon.getLsbD 7) (hgiel : i.getLsbD 6 = t.intcon.getLsbD 6)
    (hipen : r.getLsbD 7 = t.rcon.getLsbD 7) (ful unf : Bool) (ram : Memory) (epoch draws : Nat) (env : Env) :
    resetLoads c s { t with
      intcon := i, rcon := r, stkful := ful, stkunf := unf, ram := ram, ramEpoch := epoch, draws := draws
      env := env } := by
  obtain ⟨hpc, hstack, hpclatu, hpclath, hw, hstatus, hbsr, hfsr, hprodh, hprodl, htblptr, htablat, hh, hl,
    hp, hrest⟩ := h
  refine ⟨hpc, hstack, hpclatu, hpclath, hw, hstatus, hbsr, hfsr, hprodh, hprodl, htblptr, htablat, ?_, ?_, ?_, hrest⟩
  · rw [← show i.getLsbD 7 = t.gieh from hgieh] at hh
    exact hh
  · rw [← show i.getLsbD 6 = t.giel from hgiel] at hl
    exact hl
  · rw [← show r.getLsbD 7 = t.ipen from hipen] at hp
    exact hp

/-! ### The suggested table -/

theorem ofBool_eq_zero {b : Bool} (h : BitVec.ofBool b = 0#1) : b = false := by
  cases b with
  | false => rfl
  | true => cases h

/-- The registers that both columns of the suggested table of R48 give a value. -/
theorem loadedByTable_of_loads {c : ResetColumn} {s t : State}
    (hc : c = ResetValues.suggested.powerOn ∨ c = ResetValues.suggested.mclr) (h : resetLoads c s t) :
    loadedByTable t := by
  obtain ⟨-, -, hpclatu, hpclath, -, -, hbsr, hfsr, -, -, htblptr, htablat, hgieh, hgiel, hipen, -⟩ := h
  obtain rfl | rfl := hc <;>
    exact ⟨hpclatu, hpclath, hbsr, htblptr, htablat, fun n => (hfsr n).1, ofBool_eq_zero hgieh, ofBool_eq_zero hgiel,
      ofBool_eq_zero hipen⟩

/-- The registers that the MCLR column of the suggested table keeps. -/
theorem keptByMclr_of_loads {s t : State} (h : resetLoads ResetValues.suggested.mclr s t) : keptByMclr s t := by
  obtain ⟨-, -, -, -, hw, hstatus, -, hfsr, hprodh, hprodl, -⟩ := h
  have hflags : t.flags = s.flags := by
    rw [← t.flags.ofBits_bits, ← s.flags.ofBits_bits]
    exact congrArg Flags.ofBits hstatus
  exact ⟨hw, hflags, hprodh, hprodl, fun n => (hfsr n).2⟩

/-! ### TO and PD -/

theorem extractLsb'_one (x : Byte) (k : Nat) : x.extractLsb' k 1 = BitVec.ofBool (x.getLsbD k) := by
  rw [← extractLsb'_one_getLsbD]
  generalize x.extractLsb' k 1 = b
  revert b
  decide

/-- A bit of RCON that was loaded by its entry. -/
theorem loads_of_loadBit {e : ResetTo 1} {x y : Byte} {k draw : Nat}
    (h : y.getLsbD k = e.loadBit (x.getLsbD k) draw) : e.Loads (x.extractLsb' k 1) (y.extractLsb' k 1) := by
  rw [extractLsb'_one, extractLsb'_one, h]
  exact e.loadBit_loads _ draw

theorem getLsbD_of_loads_unchanged {x y : Byte} {k : Nat}
    (h : (ResetTo.unchanged : ResetTo 1).Loads (x.extractLsb' k 1) (y.extractLsb' k 1)) :
    y.getLsbD k = x.getLsbD k := by
  rw [← extractLsb'_one_getLsbD, ← extractLsb'_one_getLsbD, show y.extractLsb' k 1 = _ from h]

theorem getLsbD_of_loads_value {v : BitVec 1} {x y : Byte} {k : Nat}
    (h : (ResetTo.value v).Loads (x.extractLsb' k 1) (y.extractLsb' k 1)) : y.getLsbD k = v.getLsbD 0 := by
  rw [← extractLsb'_one_getLsbD, show y.extractLsb' k 1 = _ from h]

theorem State.resetTo_timeOut (s : State) (c : ResetColumn) :
    c.timeOut.Loads (s.rcon.extractLsb' 3 1) ((s.resetTo c).rcon.extractLsb' 3 1) :=
  loads_of_loadBit (s.resetTo_rcon_getLsbD c 3)

theorem State.resetTo_powerDown (s : State) (c : ResetColumn) :
    c.powerDown.Loads (s.rcon.extractLsb' 2 1) ((s.resetTo c).rcon.extractLsb' 2 1) :=
  loads_of_loadBit (s.resetTo_rcon_getLsbD c 2)

/-! ### The MCLR class -/

/-- What every reset of the MCLR class does, whatever it makes of TO, of PD and of the offers. -/
theorem mclrReset_update (s : State) {r : Byte}
    (hr : ∀ n, n ≠ 2 → n ≠ 3 → r.getLsbD n = s.mclrReset.rcon.getLsbD n) (draws : Nat) (env : Env) :
    let t := { s.mclrReset with rcon := r, draws := draws, env := env }
    resetLoads s.cfg.resetValues.mclr s t ∧ keptByMclrClass s t
      ∧ (s.cfg.resetValues = ResetValues.suggested → loadedByTable t ∧ keptByMclr s t) := by
  intro t
  have hloads : resetLoads s.cfg.resetValues.mclr s t :=
    resetLoads_update (s.resetTo_loads s.cfg.resetValues.mclr) rfl rfl (hr 7 (by decide) (by decide)) _ _ _ _ _ _
  refine ⟨hloads, ⟨fun addr => rfl, rfl, rfl, fun n hn => ?intcon, fun n hn h2 h3 => ?rcon⟩, fun hsuggested => ?table⟩
  case intcon =>
    exact (s.resetTo_intcon_getLsbD _ n).trans (by rw [if_neg (by omega), if_neg (by omega)])
  case rcon =>
    exact (hr n h2 h3).trans ((s.resetTo_rcon_getLsbD _ n).trans
      (by rw [if_neg h2, if_neg h3, if_neg (by omega)]))
  case table =>
    rw [hsuggested] at hloads
    exact ⟨loadedByTable_of_loads (.inr rfl) hloads, keptByMclr_of_loads hloads⟩

/-- Settles O43: RESET is the MCLR class with nothing added. -/
theorem resetInstruction : Obligations.ResetInstruction := by
  intro s
  obtain ⟨hloads, hkept, htable⟩ := mclrReset_update s (fun _ _ _ => rfl) s.mclrReset.draws s.mclrReset.env
  have hto : s.cfg.resetValues.mclr.timeOut.Loads (s.rcon.extractLsb' 3 1) (s.mclrReset.rcon.extractLsb' 3 1) :=
    s.resetTo_timeOut _
  have hpd : s.cfg.resetValues.mclr.powerDown.Loads (s.rcon.extractLsb' 2 1) (s.mclrReset.rcon.extractLsb' 2 1) :=
    s.resetTo_powerDown _
  refine ⟨s.mclrReset, exec_reset s, hloads, hkept, hto, hpd, rfl, fun hsuggested => ?_⟩
  obtain ⟨hloaded, hkeptMclr⟩ := htable hsuggested
  refine ⟨hloaded, hkeptMclr, getLsbD_of_loads_unchanged ?_, getLsbD_of_loads_unchanged ?_⟩
  · rwa [hsuggested] at hto
  · rwa [hsuggested] at hpd

/-! ### The Watchdog and wake-up -/

theorem withBit_other (x : Byte) {k : Nat} (b : Bool) (hk : k < 8) {n : Nat} (hn : n ≠ k) :
    (withBit x k b).getLsbD n = x.getLsbD n := by
  rw [withBit_getLsbD x k n b hk, if_neg hn]

theorem withBit_same (x : Byte) {k : Nat} (b : Bool) (hk : k < 8) : (withBit x k b).getLsbD k = b := by
  rw [withBit_getLsbD x k k b hk, if_pos rfl]

/-- Settles O59: the time-out asleep and awake, and the wake-up. -/
theorem watchdogAndWake : Obligations.WatchdogAndWake := by
  intro s
  refine ⟨fun hb hasleep => ?wakes, fun hb hawake => ?resets, fun hb => step_of_boundary hb⟩
  case wakes =>
    rw [step_of_boundary hb, State.takeBoundary, if_pos hasleep, State.wdtTimeout, if_pos hasleep]
    rfl
  case resets =>
    have hrcon (n : Nat) (hn : n ≠ 3) :
        (withBit s.mclrReset.rcon 3 false).getLsbD n = s.mclrReset.rcon.getLsbD n :=
      withBit_other _ _ (by decide) hn
    obtain ⟨hloads, hkept, htable⟩ := mclrReset_update s (fun n _ h3 => hrcon n h3) s.mclrReset.draws Env.none
    have hpd : s.cfg.resetValues.mclr.powerDown.Loads (s.rcon.extractLsb' 2 1)
        ((withBit s.mclrReset.rcon 3 false).extractLsb' 2 1) :=
      loads_of_loadBit ((hrcon 2 (by decide)).trans (s.resetTo_rcon_getLsbD _ 2))
    refine ⟨_, ?step, hloads, hkept, withBit_same _ _ (by decide), hpd, rfl, fun hsuggested => ?table⟩
    case step =>
      rw [step_of_boundary hb, State.takeBoundary, if_neg (by simp [hawake]), State.wdtTimeout,
        if_neg (by simp [hawake])]
      rfl
    case table =>
      obtain ⟨hloaded, hkeptMclr⟩ := htable hsuggested
      refine ⟨hloaded, hkeptMclr, getLsbD_of_loads_unchanged ?_⟩
      rwa [hsuggested] at hpd

/-! ### Reset events -/

/-- A byte made of two by a mask: the bits of one where the mask has them, of the other elsewhere. -/
theorem masked_getLsbD (x y : Byte) {m m' : Byte} {n : Nat} (hm : m'.getLsbD n = !m.getLsbD n) :
    ((x &&& m) ||| (y &&& m')).getLsbD n = if m.getLsbD n = true then x.getLsbD n else y.getLsbD n := by
  rw [BitVec.getLsbD_or, BitVec.getLsbD_and, BitVec.getLsbD_and, hm]
  cases m.getLsbD n <;> simp

/-- After power-on the enables of INTCON are the reset's, its other bits the family's. -/
theorem powerOnReset_intcon_getLsbD (s : State) {n : Nat} (hn : n < 8) : s.powerOnReset.intcon.getLsbD n =
    if 6 ≤ n then (s.resetTo s.cfg.resetValues.powerOn).intcon.getLsbD n else State.reset.intcon.getLsbD n := by
  have hmask : ∀ k : Fin 8, (0x3F#8).getLsbD k.val = (!(0xC0#8).getLsbD k.val)
      ∧ ((0xC0#8).getLsbD k.val = true ↔ 6 ≤ k.val) := by decide
  obtain ⟨hcompl, hbits⟩ := hmask ⟨n, hn⟩
  refine (masked_getLsbD _ _ hcompl).trans ?_
  simp only [hbits]

/-- After power-on IPEN, TO and PD of RCON are the reset's, its other bits the family's. -/
theorem powerOnReset_rcon_getLsbD (s : State) {n : Nat} (hn : n < 8) : s.powerOnReset.rcon.getLsbD n =
    if n = 7 ∨ n = 3 ∨ n = 2 then (s.resetTo s.cfg.resetValues.powerOn).rcon.getLsbD n
    else State.reset.rcon.getLsbD n := by
  have hmask : ∀ k : Fin 8, (0x73#8).getLsbD k.val = (!(0x8C#8).getLsbD k.val)
      ∧ ((0x8C#8).getLsbD k.val = true ↔ k.val = 7 ∨ k.val = 3 ∨ k.val = 2) := by decide
  obtain ⟨hcompl, hbits⟩ := hmask ⟨n, hn⟩
  refine (masked_getLsbD _ _ hcompl).trans ?_
  simp only [hbits]

/-- What a power-on reset loads, whatever becomes of the offers. -/
theorem powerOnReset_loads (s : State) (env : Env) :
    resetLoads s.cfg.resetValues.powerOn s { s.powerOnReset with env := env } :=
  resetLoads_update (s.resetTo_loads s.cfg.resetValues.powerOn)
    ((powerOnReset_intcon_getLsbD s (by decide)).trans (if_pos (by decide)))
    ((powerOnReset_intcon_getLsbD s (by decide)).trans (if_pos (by decide)))
    ((powerOnReset_rcon_getLsbD s (by decide)).trans (if_pos (by decide))) _ _ _ _ _ _

theorem powerOnReset_timeOut (s : State) :
    s.cfg.resetValues.powerOn.timeOut.Loads (s.rcon.extractLsb' 3 1) (s.powerOnReset.rcon.extractLsb' 3 1) :=
  loads_of_loadBit (((powerOnReset_rcon_getLsbD s (by decide)).trans (if_pos (by decide))).trans
    (s.resetTo_rcon_getLsbD _ 3))

theorem powerOnReset_powerDown (s : State) :
    s.cfg.resetValues.powerOn.powerDown.Loads (s.rcon.extractLsb' 2 1) (s.powerOnReset.rcon.extractLsb' 2 1) :=
  loads_of_loadBit (((powerOnReset_rcon_getLsbD s (by decide)).trans (if_pos (by decide))).trans
    (s.resetTo_rcon_getLsbD _ 2))

/-- A MCLR reset changes of RCON, against the RESET instruction, TO and PD alone. -/
theorem resetBy_mclr_rcon (s : State) (n : Nat) (h2 : n ≠ 2) (h3 : n ≠ 3) :
    (s.resetBy .mclr).rcon.getLsbD n = s.mclrReset.rcon.getLsbD n := by
  rw [State.resetBy]
  split
  · exact (withBit_other _ _ (by decide) h2).trans (withBit_other _ _ (by decide) h3)
  · rfl

/-- Against the RESET instruction, a MCLR reset changes RCON and what is drawn. -/
theorem resetBy_mclr_eq (s : State) : ∃ draws, s.resetBy .mclr
    = { s.mclrReset with rcon := (s.resetBy .mclr).rcon, draws := draws } := by
  rw [State.resetBy]
  split
  · exact ⟨_, rfl⟩
  · exact ⟨_, rfl⟩

/-- TO and PD of a MCLR reset in Sleep, by the entries of their own (R48). -/
theorem resetBy_mclr_asleep {s : State} (h : s.asleep = true) :
    s.cfg.resetValues.asleepTimeOut.Loads (s.rcon.extractLsb' 3 1) ((s.resetBy .mclr).rcon.extractLsb' 3 1)
      ∧ s.cfg.resetValues.asleepPowerDown.Loads (s.rcon.extractLsb' 2 1)
          ((s.resetBy .mclr).rcon.extractLsb' 2 1) := by
  have hreset : s.resetBy .mclr = s.mclrAsleep := if_pos h
  rw [hreset]
  exact ⟨loads_of_loadBit ((withBit_other _ _ (by decide) (by decide)).trans (withBit_same _ _ (by decide))),
    loads_of_loadBit (withBit_same _ _ (by decide))⟩

/-- TO and PD of a MCLR reset out of Sleep, by the column. -/
theorem resetBy_mclr_awake {s : State} (h : s.asleep = false) :
    s.cfg.resetValues.mclr.timeOut.Loads (s.rcon.extractLsb' 3 1) ((s.resetBy .mclr).rcon.extractLsb' 3 1)
      ∧ s.cfg.resetValues.mclr.powerDown.Loads (s.rcon.extractLsb' 2 1)
          ((s.resetBy .mclr).rcon.extractLsb' 2 1) := by
  have hreset : s.resetBy .mclr = s.mclrReset := if_neg (by simp [h])
  rw [hreset]
  exact ⟨s.resetTo_timeOut _, s.resetTo_powerDown _⟩

/-- Settles O60: power-on by its column; MCLR as RESET but for TO and PD in Sleep. -/
theorem resetEvents : Obligations.ResetEvents := by
  intro s kind hb rv to_ pd
  refine ⟨_, step_of_boundary hb, rfl, ?powerOn, ?mclr⟩
  case powerOn =>
    rintro rfl
    have hto := powerOnReset_timeOut s
    have hpd := powerOnReset_powerDown s
    refine ⟨powerOnReset_loads s Env.none, hto, hpd, rfl, rfl, fun n hn => ?intcon, fun n hn h2 h3 => ?rcon,
      fun hsuggested => ?table⟩
    case intcon => exact (powerOnReset_intcon_getLsbD s (by omega)).trans (if_neg (by omega))
    case rcon => exact (powerOnReset_rcon_getLsbD s (by omega)).trans (if_neg (by omega))
    case table =>
      have hloads := powerOnReset_loads s Env.none
      rw [show s.cfg.resetValues = _ from hsuggested] at hloads hto hpd
      exact ⟨loadedByTable_of_loads (.inl rfl) hloads, getLsbD_of_loads_value hto, getLsbD_of_loads_value hpd⟩
  case mclr =>
    rintro rfl
    obtain ⟨draws, hreset⟩ := resetBy_mclr_eq s
    have ht : { s.resetBy .mclr with env := Env.none }
        = { s.mclrReset with rcon := (s.resetBy .mclr).rcon, draws := draws, env := Env.none } :=
      congrArg (fun u : State => { u with env := Env.none }) hreset
    obtain ⟨hloads, hkept, htable⟩ := mclrReset_update s (resetBy_mclr_rcon s) draws Env.none
    rw [← ht] at hloads hkept htable
    refine ⟨hloads, hkept, resetBy_mclr_asleep, resetBy_mclr_awake, fun hsuggested => ?table⟩
    case table =>
      obtain ⟨hloaded, hkeptMclr⟩ := htable hsuggested
      refine ⟨hloaded, hkeptMclr, ?_⟩
      cases hasleep : s.asleep with
      | true =>
        obtain ⟨hto, hpd⟩ := resetBy_mclr_asleep hasleep
        rw [show s.cfg.resetValues = _ from hsuggested] at hto hpd
        exact ⟨getLsbD_of_loads_value hto, getLsbD_of_loads_value hpd⟩
      | false =>
        obtain ⟨hto, hpd⟩ := resetBy_mclr_awake hasleep
        rw [show s.cfg.resetValues = _ from hsuggested] at hto hpd
        exact ⟨getLsbD_of_loads_unchanged hto, getLsbD_of_loads_unchanged hpd⟩

end Sys2Proof.Machine
end
